-- ==== Sys2Proof/Word.lean ====
section
/-! DEFINITION. The byte of the BC-340's frames and the few plain helpers over numbers. Every quantity of the manual
is an integer with a stated range (00_scope.md, 4.2); only what travels in a frame is a byte. -/

namespace Sys2Proof

/-- One character or byte of a frame (R183, R189). -/
abbrev Byte := BitVec 8

end Sys2Proof
end

