-- ==== Sys2Proof/Syntax.lean ====
section
/-! DEFINITION. The commands of the block: one constructor per row of spec/opcode_table.json. -/

namespace Sys2Proof

/-- The three ports (00_scope.md, Table 0-2). -/
inductive Port where
  | a | b | c
  deriving DecidableEq, Repr

/-- The two multidrop ports (R183). -/
inductive LinePort where
  | a | b
  deriving DecidableEq, Repr

/-- The measurement channels (R28). -/
inductive Channel where
  | p | d | m
  deriving DecidableEq, Repr

/-- The level inputs (R43). -/
inductive LevelInput where
  | stop | tailgate | tableLoaded
  deriving DecidableEq, Repr

/-- The film dispensers (R132). -/
inductive Dispenser where
  | one | two
  deriving DecidableEq, Repr

/-- The strap pins as they stand at a sampling (R51), `true` being the digit 1. -/
structure Straps where
  a1 : Bool
  a0 : Bool
  b1 : Bool
  b0 : Bool
  c : Bool
  deriving DecidableEq, Repr

/-- A write transaction on port C's wires: the address it begins with and the data bytes it carries (R189). -/
structure WriteTransfer where
  address : BitVec 7
  bytes : List Byte
  deriving DecidableEq, Repr

/-- A read transaction on port C's wires: the address it begins with and how many bytes it clocks out (R189, R191). -/
structure ReadTransfer where
  address : BitVec 7
  count : Nat
  deriving DecidableEq, Repr

/-- A step of the part. A request row names the port on which the request is taken and carries its payload bytes. -/
inductive Instr where
  /-- POWER_ON_RESET: application of supply, with the strap pins as sampled at its end (R27, R51). -/
  | powerOnReset (straps : Straps)
  /-- PIN_RESET_ASSERTION: nRST asserted (R26). -/
  | pinResetAssertion
  /-- PIN_RESET_RELEASE: nRST released, with the strap pins as sampled then (R51, R202). -/
  | pinResetRelease (straps : Straps)
  /-- RUN_CLOCK_TICK: one 0.1 s interval (R12). -/
  | runClockTick
  /-- PDM_OUTPUT_SLOT: one output slot of the pulse-density stage (R74). -/
  | pdmOutputSlot
  /-- LEVEL_PIN_CHANGE: a level pin comes to the asserted or deasserted level (R43). -/
  | levelPinChange (input : LevelInput) (asserted : Bool)
  /-- STABILITY_TIMER_EXPIRY: a level input's 20 ms timer runs out (R43). -/
  | stabilityTimerExpiry (input : LevelInput)
  /-- TABLE_PULSE: a table encoder pulse (R49). -/
  | tablePulse
  /-- TABLE_INDEX: a table index pulse (R121). -/
  | tableIndex
  /-- BALE_ROLL: a bale-roller pulse (R111). -/
  | baleRoll
  /-- NET_ROLL: a net metering pulse (R79). -/
  | netRoll
  /-- FILM_PULSE: a FILM1 or FILM2 pulse (R136). -/
  | filmPulse (dispenser : Dispenser)
  /-- CONVERSION_COMPLETION: a channel's conversion ends with this raw code (R30). -/
  | conversionCompletion (channel : Channel) (raw : Int)
  /-- ZERO_DUE_EXPIRY: a channel's 2000 ms zero-due timer runs out (R34). -/
  | zeroDueExpiry (channel : Channel)
  /-- AUTO_ZERO_COMPLETION: the 40 ms of a channel's auto-zero end (R37). -/
  | autoZeroCompletion (channel : Channel)
  /-- NET_CATCH_EXPIRY: the net-catch timer runs out (R82). -/
  | netCatchExpiry
  /-- TRANSFER_TIMER_EXPIRY: the transfer timer runs out (R98). -/
  | transferTimerExpiry
  /-- ADDRESS_CHARACTER: a character with its flag at 1, on port A or B (R184). -/
  | addressCharacter (line : LinePort) (data : Byte) (stopError : Bool)
  /-- DATA_CHARACTER: a character with its flag at 0, on port A or B (R184). -/
  | dataCharacter (line : LinePort) (data : Byte) (stopError : Bool)
  /-- INTER_CHARACTER_TIMEOUT: the 40 bit-time timeout runs out (R184). -/
  | interCharacterTimeout (line : LinePort)
  /-- RESPONSE_TRANSMISSION_COMPLETION: a response has been sent (R186). -/
  | responseTransmissionCompletion (line : LinePort)
  /-- WRITE_TRANSACTION: a write on port C's wires ends (R189). -/
  | writeTransaction (write : WriteTransfer)
  /-- READ_TRANSACTION: a read on port C's wires (R189, R191). -/
  | readTransaction (read : ReadTransfer)
  /-- UNKNOWN_COMMAND: a request with a code not in Table 10-3 (R192). -/
  | unknownCommand (port : Port) (code : Byte) (payload : List Byte)
  /-- IDENTIFY (R199). -/
  | identify (port : Port) (payload : List Byte)
  /-- READ STATUS (R200). -/
  | readStatus (port : Port) (payload : List Byte)
  /-- READ NEXT (R195). -/
  | readNext (port : Port) (payload : List Byte)
  /-- TAKE NOTICE (R172). -/
  | takeNotice (port : Port) (payload : List Byte)
  /-- ACK NOTICE (R174). -/
  | ackNotice (port : Port) (payload : List Byte)
  /-- SET NOTICE PLAN (R178). -/
  | setNoticePlan (port : Port) (payload : List Byte)
  /-- ACK CURRENT (R175). -/
  | ackCurrent (port : Port) (payload : List Byte)
  /-- READ LINK STATS (R198). -/
  | readLinkStats (port : Port) (payload : List Byte)
  /-- PORT RESET (R201). -/
  | portReset (port : Port) (payload : List Byte)
  /-- READ BALE (R21). -/
  | readBale (port : Port) (payload : List Byte)
  /-- READ CHANNEL (R41). -/
  | readChannel (port : Port) (payload : List Byte)
  /-- HOLD ZERO (R38). -/
  | holdZero (port : Port) (payload : List Byte)
  /-- RELEASE ZERO (R38). -/
  | releaseZero (port : Port) (payload : List Byte)
  /-- PREZERO (R39). -/
  | prezero (port : Port) (payload : List Byte)
  /-- OPEN BALE (R17). -/
  | openBale (port : Port) (payload : List Byte)
  /-- DUMP PRECHAMBER (R18). -/
  | dumpPrechamber (port : Port) (payload : List Byte)
  /-- NET START (R77). -/
  | netStart (port : Port) (payload : List Byte)
  /-- NET ABORT (R83). -/
  | netAbort (port : Port) (payload : List Byte)
  /-- REQUEST EJECT (R91). -/
  | requestEject (port : Port) (payload : List Byte)
  /-- CANCEL EJECT (R94). -/
  | cancelEject (port : Port) (payload : List Byte)
  /-- DISCARD BALE (R19). -/
  | discardBale (port : Port) (payload : List Byte)
  /-- TIP (R126). -/
  | tip (port : Port) (payload : List Byte)
  /-- ABANDON WRAP (R124). -/
  | abandonWrap (port : Port) (payload : List Byte)
  /-- RESTORE DISPENSER (R139). -/
  | restoreDispenser (port : Port) (payload : List Byte)
  /-- WITHDRAW DISPENSER (R140). -/
  | withdrawDispenser (port : Port) (payload : List Byte)
  /-- HOLD TABLE (R95). -/
  | holdTable (port : Port) (payload : List Byte)
  /-- FREE TABLE (R95). -/
  | freeTable (port : Port) (payload : List Byte)
  /-- LOAD RECIPE (R55). -/
  | loadRecipe (port : Port) (payload : List Byte)
  /-- READ RECIPE (R57). -/
  | readRecipe (port : Port) (payload : List Byte)
  /-- SET MACHINE (R60). -/
  | setMachine (port : Port) (payload : List Byte)
  /-- READ MACHINE (R62). -/
  | readMachine (port : Port) (payload : List Byte)
  /-- NEW ROLL (R147). -/
  | newRoll (port : Port) (payload : List Byte)
  /-- READ STOCK (R151). -/
  | readStock (port : Port) (payload : List Byte)
  /-- FETCH REPORT (R160). -/
  | fetchReport (port : Port) (payload : List Byte)
  /-- RELEASE REPORT (R161). -/
  | releaseReport (port : Port) (payload : List Byte)
  /-- QUEUE STATUS (R163). -/
  | queueStatus (port : Port) (payload : List Byte)
  deriving DecidableEq, Repr

end Sys2Proof
end

