-- ==== Sys2Proof/Decode.lean ====
section
/-! DEFINITION. The command that a word spells by the table's bits. No row of spec/opcode_table.json gives bits (each row
has an empty list of fields), so no word spells a command (log entry 2). -/

namespace Sys2Proof

/-- The command spelled by the `nbits`-bit word `w`: none, since no row of the table gives bits. -/
def decodeTableWord (_nbits _w : Nat) : Option Instr := none

end Sys2Proof
end

