-- ==== Sys2Proof/Config.lean ====
section
/-! DEFINITION. What the spec leaves open: free values. They have no body, so nothing can be proved of them. -/

namespace Sys2Proof

/-- A byte the spec does not give (log entry 8): the byte for REPORTS among the fifteen priority bytes of the
SET NOTICE PLAN response. R169 gives REPORTS no stored priority, and Table 10-3 says of the request only that the
byte is disregarded. The argument is the state's counter `freeCount`, so that every use is a fresh value. -/
opaque Config.freeByte : Nat → Byte

/-- A bale's film total past the top of Table 6-1's range (log entry 26): R142 holds that the total cannot overflow,
because at most 65535 lays are counted, but lays go on past a saturated lay count. The argument is the exact sum. -/
opaque Config.freeFilm : Nat → BitVec 32

end Sys2Proof
end

