-- ==== Sys2Proof/Machine/Types.lean ====
section
/-! DEFINITION. The data of each block (00_scope.md, Table 0-1): plain records, before the whole State is put together. -/

namespace Sys2Proof.Machine

/-- One thing per port. -/
structure PerPort (α : Type) where
  a : α
  b : α
  c : α
  deriving DecidableEq, Repr

/-- One thing per measurement channel. -/
structure PerChannel (α : Type) where
  p : α
  d : α
  m : α
  deriving DecidableEq, Repr

/-- One thing per dispenser. -/
structure PerDispenser (α : Type) where
  one : α
  two : α
  deriving DecidableEq, Repr

/-- A timer: STOPPED, RUNNING with the duration in ms it was started with, or SUSPENDED (R81, R96). The time that has
elapsed is not held (log entry 6). -/
inductive Timer where
  | stopped
  | running (ms : Nat)
  | suspended
  deriving DecidableEq, Repr

/-! ### Bale records (chapter 1) -/

/-- The zones (Table 0-6, R2). -/
inductive Zone where
  | pre | chamber | table
  deriving DecidableEq, Repr

/-- The stages in the order of Table 0-6. -/
inductive Stage where
  | gathering | forming | netting | netted | ejecting | wrapping | wrapped | tipping
  deriving DecidableEq, Repr

/-- Why a record closed (R22). -/
inductive CloseReason where
  | done | discarded | dropped | lostInTransfer | reset
  deriving DecidableEq, Repr

/-- The fifteen recipe fields (Table 3-1). -/
structure Recipe where
  targetDiameter : Nat
  dc : Nat
  pc : Nat
  ps : Nat
  r : Nat
  nt : Nat
  tail : Nat
  m1 : Nat
  m2 : Nat
  l1 : Nat
  l2 : Nat
  l3 : Nat
  neck : Nat
  s : Nat
  maxRevs : Nat
  deriving DecidableEq, Repr

/-- The set of record flags (Table 1-2), in that table's order. -/
structure RecordFlags where
  underwrapped : Bool
  forcedTip : Bool
  uncommandedTip : Bool
  transferFault : Bool
  stopSeen : Bool
  staleSensor : Bool
  overpressureSeen : Bool
  moistureUnknown : Bool
  filmShort : Bool
  deriving DecidableEq, Repr

/-- The four net fields, present together from the first NET START (R6). -/
structure NetFields where
  diameter : Nat
  circ : Nat
  target : Nat
  metered : Nat
  deriving DecidableEq, Repr

/-- One entry of a break list (R137). -/
structure BreakEntry where
  dispenser : Dispenser
  revolutions : Nat
  surfacePos : Nat
  time : Nat
  deriving DecidableEq, Repr

/-- The wrap section (Table 6-1). `layers` has sector 0 first. -/
structure WrapSection where
  layerTarget : Nat
  circ : Nat
  surfacePos : Nat
  layers : List Nat
  revolutions : Nat
  lays1 : Nat
  lays2 : Nat
  film1 : Nat
  film2 : Nat
  breaks : List BreakEntry
  breakCount : Nat
  deriving DecidableEq, Repr

/-- A bale record (Table 1-1). An absent field is `none`. A report is the record as closed (R155). -/
structure Bale where
  seq : Nat
  recipeIndex : Nat
  recipe : Recipe
  stage : Stage
  opened : Nat
  formed : Option Nat
  netStarted : Option Nat
  netted : Option Nat
  ejected : Option Nat
  arrived : Option Nat
  wrapped : Option Nat
  closed : Option Nat
  flags : RecordFlags
  moistureSum : Nat
  moistureCount : Nat
  moistureMean : Option Nat
  peakPressure : Nat
  netAttempts : Nat
  net : Option NetFields
  netTurns : Option Nat
  ejectRequested : Bool
  wrap : Option WrapSection
  closeReason : Option CloseReason
  deriving DecidableEq, Repr

/-- A report holds every field of the closed record (R155). -/
abbrev Report := Bale

/-- BT: the live records, oldest first, the sequence counter and the run clock (R8, R9, R11, R12). -/
structure BaleTable where
  bales : List Bale
  seqCounter : Nat
  runClock : Nat
  deriving DecidableEq, Repr

/-! ### Measurement front end and machine inputs (chapter 2) -/

/-- A set of ports, such as a hold set (R28). -/
structure PortSet where
  a : Bool
  b : Bool
  c : Bool
  deriving DecidableEq, Repr

/-- The channel record of Table 2-1, but for the period and the calibration pair, which RS holds. -/
structure ChannelRecord where
  raw : Int
  value : Nat
  stale : Bool
  saturated : Bool
  debt : Int
  hold : PortSet
  zeroing : Bool
  convTimer : Timer
  zeroDueTimer : Timer
  deriving DecidableEq, Repr

/-- A level input: its pin (the environment's), its filtered level, its stability timer (R43). `true` is asserted. -/
structure LevelLine where
  pin : Bool
  filtered : Bool
  timer : Timer
  deriving DecidableEq, Repr

/-- MI: the level inputs and the table angle counter (R43, R48). -/
structure MachineInputs where
  stop : LevelLine
  tailgate : LevelLine
  tableLoaded : LevelLine
  angle : Nat
  deriving DecidableEq, Repr

/-! ### Recipe store (chapter 3) -/

/-- A recipe slot (R53). -/
structure RecipeSlot where
  valid : Bool
  recipe : Recipe
  deriving DecidableEq, Repr

/-- A calibration pair (Table 2-1). -/
structure Calibration where
  raw0 : Int
  eng0 : Nat
  raw1 : Int
  eng1 : Nat
  deriving DecidableEq, Repr

/-- The machine constants of one channel, groups 0 to 2 (Table 3-3). -/
structure ChannelConstants where
  period : Nat
  pair : Calibration
  deriving DecidableEq, Repr

/-- The machine constants of group 3 (Table 3-2). -/
structure Constants where
  baleWidth : Nat
  filmWidth : Nat
  rollStep : Nat
  netStep : Nat
  tablePulses : Nat
  transferTimeout : Nat
  netCatchTimeout : Nat
  opLimit : Nat
  opHyst : Nat
  dvOffset : Int
  dvGain : Nat
  netLow : Nat
  filmLow : Nat
  deriving DecidableEq, Repr

/-- RS: the eight slots and the machine constants (R53, R58). -/
structure RecipeStore where
  slots : List RecipeSlot
  chan : PerChannel ChannelConstants
  constants : Constants
  deriving DecidableEq, Repr

/-! ### Chamber, handover, dispensers (chapters 4, 5, 7) -/

/-- CU (Table 4-1), and the level of pin DVOUT in the latest output slot (R74). -/
structure ChamberUnit where
  computedCode : Nat
  dvCode : Nat
  pdmAcc : Nat
  dvout : Bool
  lockout : Bool
  netCatchTimer : Timer
  baleFull : Bool
  deriving DecidableEq, Repr

/-- HU (Table 5-1). -/
structure HandoverUnit where
  reservation : Option Nat
  ejectSlot : Option Nat
  tableHold : Bool
  transferTimer : Timer
  deriving DecidableEq, Repr

/-- The dispenser states (R132). -/
inductive DispenserState where
  | running | broken | empty | out
  deriving DecidableEq, Repr

/-- A dispenser record with its film roll's stock record (Table 7-1). -/
structure DispenserRecord where
  state : DispenserState
  silence : Nat
  residue : Nat
  stock : Nat
  known : Bool
  deriving DecidableEq, Repr

/-- DS (Table 7-1). -/
structure DispenserStock where
  film : PerDispenser DispenserRecord
  netStock : Nat
  netKnown : Bool
  deriving DecidableEq, Repr

/-! ### Report queue (chapter 8) -/

/-- RQ (Table 8-1). -/
structure ReportQueue where
  queue : List Report
  holding : Option Report
  lost : Nat
  overrun : Bool
  deriving DecidableEq, Repr

/-! ### Notices (chapter 9) -/

/-- The fifteen notice sources, by code 1 to 15 (Table 9-1). -/
inductive Source where
  | stage | baleFull | netDone | netMiss | ejectGrant | transfer | wrapDone | film | stockLow | reports
  | overpressure | zeroForced | link | stop | tableUnexpected
  deriving DecidableEq, Repr

/-- One thing per notice source. -/
structure PerSource (α : Type) where
  stage : α
  baleFull : α
  netDone : α
  netMiss : α
  ejectGrant : α
  transfer : α
  wrapDone : α
  film : α
  stockLow : α
  reports : α
  overpressure : α
  zeroForced : α
  link : α
  stop : α
  tableUnexpected : α
  deriving DecidableEq, Repr

/-- The latch places of one source, by instance 0 to 3: clear, or set with a detail (R167). -/
structure Places where
  i0 : Option Nat
  i1 : Option Nat
  i2 : Option Nat
  i3 : Option Nat
  deriving DecidableEq, Repr

/-- A notice as captured by TAKE NOTICE (R172). -/
structure Notice where
  source : Source
  inst : Fin 4
  priority : Nat
  detail : Nat
  deriving DecidableEq, Repr

/-- A port's notice plan (R166). The priority kept under REPORTS is not used: its priority is computed (R170). -/
structure NoticePlan where
  mask : PerSource Bool
  priorities : PerSource Nat
  reportsBase : Nat
  trigger : Nat
  threshold : Nat
  deriving DecidableEq, Repr

/-- A port's notice arbiter (Table 9-2). A condition source's places are never set. -/
structure Arbiter where
  latches : PerSource Places
  plan : NoticePlan
  current : Option Notice
  attention : Bool
  deriving DecidableEq, Repr

/-! ### Links (chapter 10) -/

/-- The status codes (Table 10-2). -/
inductive Status where
  | ok | more | queued | unknownCommand | notPermitted | badLength | badValue | notReady | occupied | noSuchBale
  | stale | busy | stopped | noTransfer | empty | invalidRecipe
  deriving DecidableEq, Repr

/-- What the owning block answers: a status and a payload. -/
structure Reply where
  status : Status
  payload : List Byte
  deriving DecidableEq, Repr

/-- A response: the command echo and the reply (Table 10-1). -/
structure Response where
  echo : Byte
  reply : Reply
  deriving DecidableEq, Repr

/-- A character on the lines of port A or B: its address flag and its eight data bits (R183). -/
structure LineCharacter where
  flag : Bool
  data : Byte
  deriving DecidableEq, Repr

/-- A good request frame: its command code and payload. -/
structure Request where
  code : Byte
  payload : List Byte
  deriving DecidableEq, Repr

/-- A transfer image and the last chunk sent of it (R194, R195). -/
structure Image where
  bytes : List Byte
  lastChunk : Nat
  deriving DecidableEq, Repr

/-- A receiver of port A or B: DOZING, or LISTENING with the data characters received since the matching address
character, first one first, and the damaged mark (R184). -/
inductive Receiver where
  | dozing
  | listening (chars : List Byte) (damaged : Bool)
  deriving DecidableEq, Repr

/-- LA or LB (R184, R186, R194, Table 10-6). `tx` is the response being sent, whose characters `State.sends` gives, `held`
the pending slot. -/
structure LineLink where
  rx : Receiver
  tx : Option Response
  held : Option Request
  image : Option Image
  frames : Nat
  abandoned : Nat
  framing : Nat
  check : Nat
  pendingLost : Nat
  errorLatch : Bool
  deriving DecidableEq, Repr

/-- LC (R190, R191, R194, Table 10-6). `readPos` is the read position in the response: how many bytes of it the
latest read transaction returned. `acks` and `sda` are the model's own fields, what LC put on the wires in the latest
transaction (log entry 16): whether it acknowledged the address, then each data byte of a write (R189), and the bytes a
read returned (R191). -/
structure TargetLink where
  buffer : Option Response
  readPos : Nat
  acks : List Bool
  sda : List Byte
  image : Option Image
  frames : Nat
  length : Nat
  check : Nat
  responseLost : Nat
  errorLatch : Bool
  deriving DecidableEq, Repr

/-- The error counters of ports A and B (Table 10-6). -/
inductive LineError where
  | abandoned | framing | check | pendingLost
  deriving DecidableEq, Repr

/-- The error counters of port C (Table 10-6). -/
inductive TargetError where
  | length | check | responseLost
  deriving DecidableEq, Repr

/-- The commands of Table 10-3. -/
inductive Command where
  | identify | readStatus | readNext | takeNotice | ackNotice | setNoticePlan | ackCurrent | readLinkStats
  | portReset | readBale | readChannel | holdZero | releaseZero | prezero | openBale | dumpPrechamber | netStart
  | netAbort | requestEject | cancelEject | discardBale | tip | abandonWrap | restoreDispenser | withdrawDispenser
  | holdTable | freeTable | loadRecipe | readRecipe | setMachine | readMachine | newRoll | readStock | fetchReport
  | releaseReport | queueStatus
  deriving DecidableEq, Repr

end Sys2Proof.Machine
end

