-- ==== Sys2Proof/Machine/Defaults.lean ====
section
/-! DEFINITION. The values of power-on reset (R27, R42, R44, R53, R58, R86, R102, R132, R154, R169, R202) and the fixed
figures of the part. -/

namespace Sys2Proof.Machine

/-! ### Timer durations, in ms -/

/-- The stability timer of a level input: 20 ms (R43). -/
def stabilityMs : Nat := 20

/-- The zero-due timer: 2000 ms (R34). -/
def zeroDueMs : Nat := 2000

/-! ### Recipe store -/

/-- The default recipe (Table 3-1). -/
def defaultRecipe : Recipe :=
  { targetDiameter := 1250, dc := 800, pc := 8000, ps := 16000, r := 300, nt := 25, tail := 300, m1 := 450, m2 := 600,
    l1 := 4, l2 := 6, l3 := 8, neck := 200, s := 70, maxRevs := 40 }

/-- The eight slots after power-on: all at the defaults, slot 0 valid (R53). -/
def defaultSlots : List RecipeSlot :=
  ⟨true, defaultRecipe⟩ :: List.replicate 7 ⟨false, defaultRecipe⟩

/-- The defaults of groups 0 to 2 (Table 3-3). -/
def defaultChannelConstants : PerChannel ChannelConstants :=
  { p := ⟨20, ⟨0, 0, 30000, 25000⟩⟩, d := ⟨50, ⟨0, 0, 32000, 2000⟩⟩, m := ⟨100, ⟨0, 0, 32000, 800⟩⟩ }

/-- The defaults of group 3 (Table 3-2). -/
def defaultConstants : Constants :=
  { baleWidth := 1200, filmWidth := 750, rollStep := 100, netStep := 500, tablePulses := 256, transferTimeout := 10,
    netCatchTimeout := 30, opLimit := 22000, opHyst := 1000, dvOffset := 2000, dvGain := 1200, netLow := 2000000,
    filmLow := 150000 }

/-- RS after power-on. -/
def defaultStore : RecipeStore := ⟨defaultSlots, defaultChannelConstants, defaultConstants⟩

/-! ### Bale table and records -/

/-- BT after power-on (R27). -/
def emptyTable : BaleTable := ⟨[], 1, 0⟩

/-- The empty set of record flags (R4). -/
def noFlags : RecordFlags := ⟨false, false, false, false, false, false, false, false, false⟩

/-! ### Channels and inputs -/

/-- The empty set of ports. -/
def noPorts : PortSet := ⟨false, false, false⟩

/-- A channel record after power-on, with its period (Table 2-5). -/
def powerOnChannel (period : Nat) : ChannelRecord :=
  { raw := 0, value := 0, stale := true, saturated := false, debt := 0, hold := noPorts, zeroing := false,
    convTimer := .running period, zeroDueTimer := .running zeroDueMs }

/-- A level input after power-on: its filtered level, with the stability timer running exactly if the pin already
stands at the other level (R44). -/
def powerOnLevel (filtered pin : Bool) : LevelLine :=
  { pin := pin, filtered := filtered, timer := if pin = filtered then .stopped else .running stabilityMs }

/-! ### Chamber, handover, dispensers, report queue -/

/-- CU after power-on and pin reset (Table 4-1). -/
def idleChamber : ChamberUnit :=
  { computedCode := 0, dvCode := 0, pdmAcc := 0, dvout := false, lockout := false, netCatchTimer := .stopped,
    baleFull := false }

/-- HU after power-on and pin reset (Table 5-1). -/
def idleHandover : HandoverUnit :=
  { reservation := none, ejectSlot := none, tableHold := false, transferTimer := .stopped }

/-- A dispenser after power-on (Table 7-1). -/
def powerOnDispenser : DispenserRecord := { state := .out, silence := 0, residue := 0, stock := 0, known := false }

/-- DS after power-on (Table 7-1). -/
def powerOnStock : DispenserStock := { film := ⟨powerOnDispenser, powerOnDispenser⟩, netStock := 0, netKnown := false }

/-- RQ after power-on (Table 8-1). -/
def emptyQueue : ReportQueue := { queue := [], holding := none, lost := 0, overrun := false }

/-! ### Notices -/

/-- The default priorities (Table 9-3). REPORTS has none stored. -/
def defaultPriorities : PerSource Nat :=
  { stage := 32, baleFull := 152, netDone := 168, netMiss := 184, ejectGrant := 160, transfer := 192, wrapDone := 176,
    film := 200, stockLow := 80, reports := 0, overpressure := 224, zeroForced := 96, link := 64, stop := 240,
    tableUnexpected := 144 }

/-- The default mask of each port (Table 9-3). -/
def defaultMask : Port → PerSource Bool
  | .a =>
    { stage := true, baleFull := true, netDone := true, netMiss := true, ejectGrant := true, transfer := true,
      wrapDone := false, film := false, stockLow := true, reports := false, overpressure := true, zeroForced := true,
      link := true, stop := true, tableUnexpected := false }
  | .b =>
    { stage := true, baleFull := false, netDone := false, netMiss := false, ejectGrant := false, transfer := true,
      wrapDone := true, film := true, stockLow := true, reports := false, overpressure := false, zeroForced := true,
      link := true, stop := true, tableUnexpected := true }
  | .c =>
    { stage := true, baleFull := false, netDone := false, netMiss := false, ejectGrant := false, transfer := false,
      wrapDone := false, film := false, stockLow := true, reports := true, overpressure := false, zeroForced := true,
      link := true, stop := true, tableUnexpected := false }

/-- The default plan of a port (R169). -/
def defaultPlan (p : Port) : NoticePlan :=
  { mask := defaultMask p, priorities := defaultPriorities, reportsBase := 16, trigger := 1, threshold := 0 }

/-- All four places of a source clear. -/
def clearPlaces : Places := ⟨none, none, none, none⟩

/-- All latch places clear. -/
def clearLatches : PerSource Places :=
  ⟨clearPlaces, clearPlaces, clearPlaces, clearPlaces, clearPlaces, clearPlaces, clearPlaces, clearPlaces,
   clearPlaces, clearPlaces, clearPlaces, clearPlaces, clearPlaces, clearPlaces, clearPlaces⟩

/-- An arbiter as power-on and pin reset leave it, with its attention line as given (R182). -/
def defaultArbiter (p : Port) (attention : Bool) : Arbiter :=
  { latches := clearLatches, plan := defaultPlan p, current := none, attention := attention }

/-- The three arbiters as power-on and pin reset leave them. -/
def defaultArbiters (attention : Bool) : PerPort Arbiter :=
  { a := defaultArbiter .a attention, b := defaultArbiter .b attention, c := defaultArbiter .c attention }

/-! ### Links -/

/-- LA or LB after power-on and after a pin reset (R202). -/
def idleLine : LineLink :=
  { rx := .dozing, tx := none, held := none, image := none, frames := 0, abandoned := 0, framing := 0, check := 0,
    pendingLost := 0, errorLatch := false }

/-- LC after power-on and after a pin reset (R202). -/
def idleTarget : TargetLink :=
  { buffer := none, readPos := 0, acks := [], sda := [], image := none, frames := 0, length := 0, check := 0,
    responseLost := 0, errorLatch := false }

/-- All strap pins at 0 (log entry 7). -/
def noStraps : Straps := ⟨false, false, false, false, false⟩

end Sys2Proof.Machine
end

