-- ==== Sys2Proof/Machine/State.lean ====
section
/-! DEFINITION. The whole state of the part, the reasons a step can stop, and the state after power-on reset. Fields are
named by the block abbreviations of Table 0-1 (00_scope.md). CV holds no state of its own (R103). -/

namespace Sys2Proof.Machine

/-- The state of the BC-340 and the queue of steps that wait for it. -/
structure State where
  /-- The MODEL's own: the steps that wait, first in, first out (log entry 1). -/
  pending : List Instr
  /-- nRST is asserted (R26, R202). -/
  nrstAsserted : Bool
  /-- The sampled straps (R51). -/
  straps : Straps
  /-- Bale table. -/
  bt : BaleTable
  /-- Measurement front end. -/
  mf : PerChannel ChannelRecord
  /-- Machine inputs. -/
  mi : MachineInputs
  /-- Recipe store. -/
  rs : RecipeStore
  /-- Chamber unit. -/
  cu : ChamberUnit
  /-- Handover unit. -/
  hu : HandoverUnit
  /-- Dispenser and stock unit. -/
  ds : DispenserStock
  /-- Report queue. -/
  rq : ReportQueue
  /-- Notice arbiters. -/
  na : PerPort Arbiter
  /-- Link unit of port A. -/
  la : LineLink
  /-- Link unit of port B. -/
  lb : LineLink
  /-- Link unit of port C. -/
  lc : TargetLink
  /-- The MODEL's own: which free value is used next (log entry 8). -/
  freeCount : Nat
  deriving DecidableEq, Repr

/-- Faults. There are none: no step of the spec stops the part. A command that fails its checks is answered with a
status, and a bad frame is discarded and counted (R185, R189, R192). -/
inductive Fault
  deriving DecidableEq, Repr

/-- Refusals. -/
inductive Refusal where
  /-- Raised by exec's arm of a command that has no meaning yet. Safe: the model stops. No arm raises it. -/
  | notModelled (mnemonic : String)
  deriving DecidableEq, Repr

/-- The part right after power-on reset (R27, R42, R44, R53, R58, R86, R102, R152, R165, R182, R202). STOP's filtered
level is asserted, so the three attention lines are (R182). Pins and straps: log entry 7. -/
def State.reset : State :=
  { pending := []
    nrstAsserted := false
    straps := noStraps
    bt := emptyTable
    mf := ⟨powerOnChannel 20, powerOnChannel 50, powerOnChannel 100⟩
    mi := ⟨powerOnLevel true true, powerOnLevel false false, powerOnLevel false false, 0⟩
    rs := defaultStore
    cu := idleChamber
    hu := idleHandover
    ds := powerOnStock
    rq := emptyQueue
    na := defaultArbiters true
    la := idleLine
    lb := idleLine
    lc := idleTarget
    freeCount := 0 }

end Sys2Proof.Machine
end

