-- ==== Sys2Proof/Machine/Operands.lean ====
section
/-! DEFINITION. How operands, payloads and codes are read and written: bytes and numbers (R193), sets of marks, the code
numbers of Tables 10-2 to 10-4, clamping (00_scope.md, 4.2), and the accessors of per-port, per-channel, per-dispenser
and per-source data. -/

namespace Sys2Proof.Machine

/-! ### Numbers -/

/-- The value clamped to the range (00_scope.md, 4.2). -/
def clampNat (v lo hi : Nat) : Nat := if v < lo then lo else if hi < v then hi else v

/-- The value clamped to the range (00_scope.md, 4.2). -/
def clampInt (v lo hi : Int) : Int := if v < lo then lo else if hi < v then hi else v

/-- A step of a counter that saturates (00_scope.md, 4.2). -/
def stepSaturating (n top : Nat) : Nat := if n < top then n + 1 else n

/-! ### Bytes: most significant first (R193) -/

/-- One byte. -/
def byte1 (n : Nat) : List Byte := [BitVec.ofNat 8 n]

/-- Two bytes. -/
def byte2 (n : Nat) : List Byte := [BitVec.ofNat 8 (n / 256), BitVec.ofNat 8 n]

/-- Four bytes. -/
def byte4 (n : Nat) : List Byte :=
  [BitVec.ofNat 8 (n / 16777216), BitVec.ofNat 8 (n / 65536), BitVec.ofNat 8 (n / 256), BitVec.ofNat 8 n]

/-- One byte in two's complement. -/
def signed1 (i : Int) : List Byte := byte1 (i % 256).toNat

/-- Two bytes in two's complement. -/
def signed2 (i : Int) : List Byte := byte2 (i % 65536).toNat

/-- A yes or no item, one byte. -/
def flag1 (b : Bool) : List Byte := byte1 b.toNat

/-- The byte at an offset of a payload, as a number. -/
def nat1 (pl : List Byte) (at_ : Nat) : Nat := (pl.getD at_ 0).toNat

/-- The two-byte number at an offset of a payload. -/
def nat2 (pl : List Byte) (at_ : Nat) : Nat := nat1 pl at_ * 256 + nat1 pl (at_ + 1)

/-- The four-byte number at an offset of a payload. -/
def nat4 (pl : List Byte) (at_ : Nat) : Nat := nat2 pl at_ * 65536 + nat2 pl (at_ + 2)

/-- The signed two-byte number at an offset of a payload. -/
def int2 (pl : List Byte) (at_ : Nat) : Int :=
  if nat2 pl at_ < 32768 then (nat2 pl at_ : Int) else (nat2 pl at_ : Int) - 65536

/-- The sum of a list of bytes mod 256, which is 0 for a good frame (R185, R189). -/
def byteSum : List Byte → Byte
  | [] => 0
  | b :: bs => b + byteSum bs

/-- The character that makes the sum 0 mod 256 (R185). -/
def checkByte (bs : List Byte) : Byte := 0 - byteSum bs

/-! ### Sets of marks: mark k has the value 2 to the power k (R193) -/

/-- The number of a set of marks, mark 0 first. -/
def marks : List Bool → Nat
  | [] => 0
  | b :: bs => b.toNat + 2 * marks bs

/-- Whether a number carries mark `k`. -/
def hasMark (n k : Nat) : Bool := n / 2 ^ k % 2 == 1

/-! ### Codes -/

/-- The zone of a stage (R2, Table 0-6). -/
def Stage.zone : Stage → Zone
  | .gathering => .pre
  | .forming => .chamber
  | .netting => .chamber
  | .netted => .chamber
  | .ejecting => .table
  | .wrapping => .table
  | .wrapped => .table
  | .tipping => .table

/-- The number of a zone (R2), which is also its instance in the STAGE notice (R14). -/
def Zone.number : Zone → Fin 4
  | .pre => 0
  | .chamber => 1
  | .table => 2

/-- The zone with this number (R21). -/
def zoneOfNumber : Nat → Option Zone
  | 0 => some .pre
  | 1 => some .chamber
  | 2 => some .table
  | _ => none

/-- The code of a stage (section 10.4). -/
def Stage.code : Stage → Nat
  | .gathering => 0
  | .forming => 1
  | .netting => 2
  | .netted => 3
  | .ejecting => 4
  | .wrapping => 5
  | .wrapped => 6
  | .tipping => 7

/-- The code of a close reason (section 10.4); none is 0. -/
def closeReasonCode : Option CloseReason → Nat
  | none => 0
  | some .done => 1
  | some .discarded => 2
  | some .dropped => 3
  | some .lostInTransfer => 4
  | some .reset => 5

/-- The code of a dispenser state (section 10.4). -/
def DispenserState.code : DispenserState → Nat
  | .running => 0
  | .broken => 1
  | .empty => 2
  | .out => 3

/-- The code of a timer state (section 10.4). -/
def Timer.code : Timer → Nat
  | .stopped => 0
  | .running _ => 1
  | .suspended => 2

/-- The status codes (Table 10-2). -/
def Status.code : Status → Nat
  | .ok => 0x00
  | .more => 0x01
  | .queued => 0x02
  | .unknownCommand => 0x10
  | .notPermitted => 0x11
  | .badLength => 0x12
  | .badValue => 0x13
  | .notReady => 0x20
  | .occupied => 0x21
  | .noSuchBale => 0x22
  | .stale => 0x23
  | .busy => 0x24
  | .stopped => 0x25
  | .noTransfer => 0x26
  | .empty => 0x27
  | .invalidRecipe => 0x28

/-- The number of a dispenser (R132). -/
def dispenserNumber : Dispenser → Nat
  | .one => 1
  | .two => 2

/-- The dispenser with this number (R132). -/
def dispenserOfNumber : Nat → Option Dispenser
  | 1 => some .one
  | 2 => some .two
  | _ => none

/-- The dispenser's number as the instance of the FILM notice (R150). -/
def dispenserInst : Dispenser → Fin 4
  | .one => 1
  | .two => 2

/-- The number of a channel (R28). -/
def channelNumber : Channel → Nat
  | .p => 0
  | .d => 1
  | .m => 2

/-- The channel with this number (R28). -/
def channelOfNumber : Nat → Option Channel
  | 0 => some .p
  | 1 => some .d
  | 2 => some .m
  | _ => none

/-- The channel's number as the instance of the ZERO_FORCED notice (R34). -/
def channelInst : Channel → Fin 4
  | .p => 0
  | .d => 1
  | .m => 2

/-- The number of a port (R199). -/
def portNumber : Port → Nat
  | .a => 0
  | .b => 1
  | .c => 2

/-- A multidrop port as a port. -/
def linePort : LinePort → Port
  | .a => .a
  | .b => .b

/-- A number from 0 to 3 as an instance. -/
def instOfNumber (n : Nat) : Option (Fin 4) := if h : n < 4 then some ⟨n, h⟩ else none

/-- The code of a notice source (Table 9-1). -/
def Source.code : Source → Nat
  | .stage => 1
  | .baleFull => 2
  | .netDone => 3
  | .netMiss => 4
  | .ejectGrant => 5
  | .transfer => 6
  | .wrapDone => 7
  | .film => 8
  | .stockLow => 9
  | .reports => 10
  | .overpressure => 11
  | .zeroForced => 12
  | .link => 13
  | .stop => 14
  | .tableUnexpected => 15

/-- The sources in the order of their codes. -/
def allSources : List Source :=
  [.stage, .baleFull, .netDone, .netMiss, .ejectGrant, .transfer, .wrapDone, .film, .stockLow, .reports,
   .overpressure, .zeroForced, .link, .stop, .tableUnexpected]

/-- The source with this code; code 0 is not a source (section 9.1). -/
def sourceOfCode (n : Nat) : Option Source := allSources.find? (fun src => src.code == n)

/-- Whether the source is a latch; the others are conditions (Table 9-1). -/
def Source.isLatch : Source → Bool
  | .baleFull => false
  | .stockLow => false
  | .reports => false
  | .overpressure => false
  | .stop => false
  | _ => true

/-! ### Accessors -/

/-- The item of a port. -/
def PerPort.get {α : Type} (x : PerPort α) : Port → α
  | .a => x.a
  | .b => x.b
  | .c => x.c

/-- The items with one port's replaced. -/
def PerPort.set {α : Type} (x : PerPort α) (p : Port) (v : α) : PerPort α :=
  match p with
  | .a => { x with a := v }
  | .b => { x with b := v }
  | .c => { x with c := v }

/-- The item of a channel. -/
def PerChannel.get {α : Type} (x : PerChannel α) : Channel → α
  | .p => x.p
  | .d => x.d
  | .m => x.m

/-- The items with one channel's replaced. -/
def PerChannel.set {α : Type} (x : PerChannel α) (ch : Channel) (v : α) : PerChannel α :=
  match ch with
  | .p => { x with p := v }
  | .d => { x with d := v }
  | .m => { x with m := v }

/-- The item of a dispenser. -/
def PerDispenser.get {α : Type} (x : PerDispenser α) : Dispenser → α
  | .one => x.one
  | .two => x.two

/-- The items with one dispenser's replaced. -/
def PerDispenser.set {α : Type} (x : PerDispenser α) (k : Dispenser) (v : α) : PerDispenser α :=
  match k with
  | .one => { x with one := v }
  | .two => { x with two := v }

/-- The item of a source. -/
def PerSource.get {α : Type} (x : PerSource α) : Source → α
  | .stage => x.stage
  | .baleFull => x.baleFull
  | .netDone => x.netDone
  | .netMiss => x.netMiss
  | .ejectGrant => x.ejectGrant
  | .transfer => x.transfer
  | .wrapDone => x.wrapDone
  | .film => x.film
  | .stockLow => x.stockLow
  | .reports => x.reports
  | .overpressure => x.overpressure
  | .zeroForced => x.zeroForced
  | .link => x.link
  | .stop => x.stop
  | .tableUnexpected => x.tableUnexpected

/-- The items with one source's replaced. -/
def PerSource.set {α : Type} (x : PerSource α) (src : Source) (v : α) : PerSource α :=
  match src with
  | .stage => { x with stage := v }
  | .baleFull => { x with baleFull := v }
  | .netDone => { x with netDone := v }
  | .netMiss => { x with netMiss := v }
  | .ejectGrant => { x with ejectGrant := v }
  | .transfer => { x with transfer := v }
  | .wrapDone => { x with wrapDone := v }
  | .film => { x with film := v }
  | .stockLow => { x with stockLow := v }
  | .reports => { x with reports := v }
  | .overpressure => { x with overpressure := v }
  | .zeroForced => { x with zeroForced := v }
  | .link => { x with link := v }
  | .stop => { x with stop := v }
  | .tableUnexpected => { x with tableUnexpected := v }

/-- The items a function gives, source by source. -/
def PerSource.make {α : Type} (f : Source → α) : PerSource α :=
  { stage := f .stage, baleFull := f .baleFull, netDone := f .netDone, netMiss := f .netMiss,
    ejectGrant := f .ejectGrant, transfer := f .transfer, wrapDone := f .wrapDone, film := f .film,
    stockLow := f .stockLow, reports := f .reports, overpressure := f .overpressure, zeroForced := f .zeroForced,
    link := f .link, stop := f .stop, tableUnexpected := f .tableUnexpected }

/-- A latch place: its detail while set. -/
def Places.get (x : Places) : Fin 4 → Option Nat
  | 0 => x.i0
  | 1 => x.i1
  | 2 => x.i2
  | 3 => x.i3

/-- The places with one of them written. -/
def Places.set (x : Places) (i : Fin 4) (v : Option Nat) : Places :=
  match i with
  | 0 => { x with i0 := v }
  | 1 => { x with i1 := v }
  | 2 => { x with i2 := v }
  | 3 => { x with i3 := v }

/-- Whether a port is in a set. -/
def PortSet.has (x : PortSet) : Port → Bool
  | .a => x.a
  | .b => x.b
  | .c => x.c

/-- The set with a port added or removed. -/
def PortSet.put (x : PortSet) (p : Port) (v : Bool) : PortSet :=
  match p with
  | .a => { x with a := v }
  | .b => { x with b := v }
  | .c => { x with c := v }

/-- Whether the set is empty. -/
def PortSet.isEmpty (x : PortSet) : Bool := !x.a && !x.b && !x.c

/-- The marks of a set of ports: A 0, B 1, C 2 (section 10.4). -/
def PortSet.marks (x : PortSet) : Nat := Sys2Proof.Machine.marks [x.a, x.b, x.c]

/-- Whether the timer is RUNNING. -/
def Timer.isRunning : Timer → Bool
  | .running _ => true
  | _ => false

/-- What STOP rising does to the net-catch or transfer timer: RUNNING becomes SUSPENDED (R81, R96). -/
def Timer.suspend : Timer → Timer
  | .running _ => .suspended
  | t => t

/-- What STOP falling does to it: SUSPENDED becomes RUNNING for its full duration (R81, R96). -/
def Timer.resume (ms : Nat) : Timer → Timer
  | .suspended => .running ms
  | t => t

/-! ### Straps and addresses (R51, R183, R189) -/

/-- The strap value sampled for a port (R51). -/
def strapValue (x : Straps) : Port → Nat
  | .a => 2 * x.a1.toNat + x.a0.toNat
  | .b => 2 * x.b1.toNat + x.b0.toNat
  | .c => x.c.toNat

/-- The address in use on a port: the station address of R183 or the target address of R189. -/
def addressOf (x : Straps) : Port → Nat
  | .a => 0x50 + strapValue x .a
  | .b => 0x54 + strapValue x .b
  | .c => 0x2C + strapValue x .c

/-! ### Frames (Table 10-1) -/

/-- The bytes of a response after any address character: echo, status, length, payload, check (Table 10-1, R191). -/
def Response.body (r : Response) : List Byte :=
  r.echo :: (byte1 r.reply.status.code ++ byte1 r.reply.payload.length ++ r.reply.payload)

/-- The bytes of a response with its check; the check is made as R185 makes a request's (log entry 9). -/
def Response.bytes (r : Response) : List Byte := r.body ++ [checkByte r.body]

/-- The characters of a response on port A or B: the address character with the port's station address, then the
response's bytes as data characters, 5 + n in all (Table 10-1, R187). -/
def Response.characters (r : Response) (station : Nat) : List LineCharacter :=
  ⟨true, BitVec.ofNat 8 station⟩ :: r.bytes.map (fun b => ⟨false, b⟩)

/-- The acknowledgements LC gives to a write of `n` data bytes at its own address: the address, data bytes 1 to 51, and
none for a 52nd or later one (R189). -/
def writeAcks (n : Nat) : List Bool := true :: (List.range n).map (fun k => decide (k < 51))

/-- The idle frame of port C (R191). -/
def idleFrame : List Byte := [0, 0, 0, 0]

end Sys2Proof.Machine
end

