-- ==== Sys2Proof/Machine/Commands.lean ====
section
/-! DEFINITION. Table 10-3: the code, the ports and the request length of every command. -/

namespace Sys2Proof.Machine

/-- The command codes (Table 10-3). -/
def Command.code : Command → Nat
  | .identify => 0x01
  | .readStatus => 0x02
  | .readNext => 0x03
  | .takeNotice => 0x08
  | .ackNotice => 0x09
  | .setNoticePlan => 0x0A
  | .ackCurrent => 0x0B
  | .readLinkStats => 0x0C
  | .portReset => 0x0F
  | .readBale => 0x10
  | .readChannel => 0x18
  | .holdZero => 0x19
  | .releaseZero => 0x1A
  | .prezero => 0x1B
  | .openBale => 0x20
  | .dumpPrechamber => 0x21
  | .netStart => 0x22
  | .netAbort => 0x23
  | .requestEject => 0x24
  | .cancelEject => 0x25
  | .discardBale => 0x26
  | .tip => 0x30
  | .abandonWrap => 0x31
  | .restoreDispenser => 0x32
  | .withdrawDispenser => 0x33
  | .holdTable => 0x34
  | .freeTable => 0x35
  | .loadRecipe => 0x40
  | .readRecipe => 0x41
  | .setMachine => 0x42
  | .readMachine => 0x43
  | .newRoll => 0x44
  | .readStock => 0x45
  | .fetchReport => 0x48
  | .releaseReport => 0x49
  | .queueStatus => 0x4A

/-- The commands in the order of their codes. -/
def allCommands : List Command :=
  [.identify, .readStatus, .readNext, .takeNotice, .ackNotice, .setNoticePlan, .ackCurrent, .readLinkStats,
   .portReset, .readBale, .readChannel, .holdZero, .releaseZero, .prezero, .openBale, .dumpPrechamber, .netStart,
   .netAbort, .requestEject, .cancelEject, .discardBale, .tip, .abandonWrap, .restoreDispenser, .withdrawDispenser,
   .holdTable, .freeTable, .loadRecipe, .readRecipe, .setMachine, .readMachine, .newRoll, .readStock, .fetchReport,
   .releaseReport, .queueStatus]

/-- The command with this code, if Table 10-3 lists it (R192). -/
def commandOfCode (code : Byte) : Option Command := allCommands.find? (fun c => c.code == code.toNat)

/-- The command's code as the byte of a frame. -/
def Command.byte (c : Command) : Byte := BitVec.ofNat 8 c.code

/-- The ports from which a command is permitted (Table 10-3). -/
def Command.ports : Command → List Port
  | .identify => [.a, .b, .c]
  | .readStatus => [.a, .b, .c]
  | .readNext => [.a, .b, .c]
  | .takeNotice => [.a, .b, .c]
  | .ackNotice => [.a, .b, .c]
  | .setNoticePlan => [.a, .b, .c]
  | .ackCurrent => [.a, .b, .c]
  | .readLinkStats => [.a, .b, .c]
  | .portReset => [.a, .b, .c]
  | .readBale => [.a, .b, .c]
  | .readChannel => [.a, .b, .c]
  | .holdZero => [.a, .b, .c]
  | .releaseZero => [.a, .b, .c]
  | .prezero => [.a, .b, .c]
  | .openBale => [.a]
  | .dumpPrechamber => [.a]
  | .netStart => [.a]
  | .netAbort => [.a]
  | .requestEject => [.a]
  | .cancelEject => [.a]
  | .discardBale => [.a, .b]
  | .tip => [.b]
  | .abandonWrap => [.b]
  | .restoreDispenser => [.b]
  | .withdrawDispenser => [.b]
  | .holdTable => [.b]
  | .freeTable => [.b]
  | .loadRecipe => [.c]
  | .readRecipe => [.a, .b, .c]
  | .setMachine => [.c]
  | .readMachine => [.a, .b, .c]
  | .newRoll => [.c]
  | .readStock => [.a, .b, .c]
  | .fetchReport => [.a, .b, .c]
  | .releaseReport => [.c]
  | .queueStatus => [.a, .b, .c]

/-- Whether a command is permitted from a port (R192). -/
def Command.permits (c : Command) (p : Port) : Bool := c.ports.contains p

/-- The length SET MACHINE's payload has for a group (Table 10-3). -/
def setMachineLength (group : Nat) : Nat := if group < 3 then 11 else 31

/-- Whether a payload has the command's request length (Table 10-3). SET MACHINE checks its own length, after its
group (R59, R192), so it passes here. -/
def Command.lengthFits (c : Command) (payload : List Byte) : Bool :=
  match c with
  | .identify => payload.length == 0
  | .readStatus => payload.length == 0
  | .readNext => payload.length == 1
  | .takeNotice => payload.length == 0
  | .ackNotice => payload.length == 2
  | .setNoticePlan => payload.length == 23
  | .ackCurrent => payload.length == 0
  | .readLinkStats => payload.length == 1
  | .portReset => payload.length == 0
  | .readBale => payload.length == 3
  | .readChannel => payload.length == 1
  | .holdZero => payload.length == 1
  | .releaseZero => payload.length == 1
  | .prezero => payload.length == 1
  | .openBale => payload.length == 1
  | .dumpPrechamber => payload.length == 0
  | .netStart => payload.length == 0
  | .netAbort => payload.length == 0
  | .requestEject => payload.length == 2
  | .cancelEject => payload.length == 2
  | .discardBale => payload.length == 2
  | .tip => payload.length == 1
  | .abandonWrap => payload.length == 0
  | .restoreDispenser => payload.length == 1
  | .withdrawDispenser => payload.length == 1
  | .holdTable => payload.length == 0
  | .freeTable => payload.length == 0
  | .loadRecipe => payload.length == 28
  | .readRecipe => payload.length == 1
  | .setMachine => true
  | .readMachine => payload.length == 1
  | .newRoll => payload.length == 5
  | .readStock => payload.length == 0
  | .fetchReport => payload.length == 0
  | .releaseReport => payload.length == 2
  | .queueStatus => payload.length == 1

/-- A refusal: the status with no payload (R192). -/
def refuse (st : Status) : Reply := ⟨st, []⟩

/-- An OK reply with a payload. -/
def answer (payload : List Byte) : Reply := ⟨.ok, payload⟩

end Sys2Proof.Machine
end

