-- ==== Sys2Proof/Machine/Records.lean ====
section
/-! DEFINITION. Finding and changing records in the bale table (R8, R9). A zone holds at most one record, so the model
names a record by its zone; where several stood in one zone, which no run reaches, the oldest is meant (log entry 17). -/

namespace Sys2Proof.Machine

/-- Whether a record stands in a zone (R2). -/
def inZone (z : Zone) (b : Bale) : Bool := b.stage.zone == z

/-- The records with the one in a zone changed. -/
def modifyZone (z : Zone) (f : Bale → Bale) : List Bale → List Bale
  | [] => []
  | b :: bs => if inZone z b then f b :: bs else b :: modifyZone z f bs

/-- The records without the one in a zone; the others keep their order (R9). -/
def removeZone (z : Zone) : List Bale → List Bale
  | [] => []
  | b :: bs => if inZone z b then bs else b :: removeZone z bs

/-- The record in a zone, if any (R2). -/
def State.recordIn (s : State) (z : Zone) : Option Bale := s.bt.bales.find? (inZone z)

/-- The live record that carries a `seq`, if any. -/
def State.recordOf (s : State) (q : Nat) : Option Bale := s.bt.bales.find? (fun b => b.seq == q)

/-- The `seq` in a zone, 0 when it is empty (Table 10-5). -/
def State.seqIn (s : State) (z : Zone) : Nat :=
  match s.recordIn z with
  | some b => b.seq
  | none => 0

/-- The state with the record in a zone changed. -/
def State.modifyRecord (s : State) (z : Zone) (f : Bale → Bale) : State :=
  { s with bt := { s.bt with bales := modifyZone z f s.bt.bales } }

/-- The state with the flags of the record in a zone changed (R4). -/
def State.flagRecord (s : State) (z : Zone) (f : RecordFlags → RecordFlags) : State :=
  s.modifyRecord z (fun b => { b with flags := f b.flags })

/-- The record in the TABLE zone if it is WRAPPING, with its wrap section (R103). -/
def State.wrapping (s : State) : Option (Bale × WrapSection) :=
  match s.recordIn .table with
  | some b => if b.stage = .wrapping then b.wrap.map (fun w => (b, w)) else none
  | none => none

/-- The state with the wrap section of the table record changed. -/
def State.modifyWrap (s : State) (f : WrapSection → WrapSection) : State :=
  s.modifyRecord .table (fun b => { b with wrap := b.wrap.map f })

/-- The counter's next value: 65535 is followed by 1 (R11). -/
def seqAfter (c : Nat) : Nat := if c < 65535 then c + 1 else 1

/-- The counter stepped until it holds a value that no live record carries (R11). The first argument bounds the steps:
one more than the number of live records always suffices. -/
def stepSeq : Nat → List Nat → Nat → Nat
  | 0, _, c => c
  | k + 1, live, c => if live.contains (seqAfter c) then stepSeq k live (seqAfter c) else seqAfter c

end Sys2Proof.Machine
end

