-- ==== Sys2Proof/Machine/Flags.lean ====
section
/-! DEFINITION. Everything the part shows as a flag: the conditions (R168), the bids, the winner and the attention line of
each port (R170, R171), the latch places (R167), and the sets of marks. -/

namespace Sys2Proof.Machine

/-! ### Marks -/

/-- The marks of a record's flags, 0 to 8 in the order of Table 1-2 (Table 10-4). -/
def RecordFlags.marks (f : RecordFlags) : Nat :=
  Sys2Proof.Machine.marks [f.underwrapped, f.forcedTip, f.uncommandedTip, f.transferFault, f.stopSeen, f.staleSensor,
    f.overpressureSeen, f.moistureUnknown, f.filmShort]

/-- The marks of a channel: STALE 0, SATURATED 1, zeroing 2 (section 10.4). -/
def ChannelRecord.marks (c : ChannelRecord) : Nat := Sys2Proof.Machine.marks [c.stale, c.saturated, c.zeroing]

/-- The obstacles to an eject grant: reservation held 0, table hold 1, STOP asserted 2 (R91, section 10.4). -/
def State.obstacles (s : State) : Nat :=
  marks [s.hu.reservation.isSome, s.hu.tableHold, s.mi.stop.filtered]

/-! ### Conditions (R168) -/

/-- The set of low stocks: 1 for the net roll, plus 2 and 4 for the film rolls (R149). Only known stocks take part. -/
def State.lowStocks (s : State) : Nat :=
  marks [s.ds.netKnown && decide (s.ds.netStock < s.rs.constants.netLow),
    s.ds.film.one.known && decide (s.ds.film.one.stock < s.rs.constants.filmLow),
    s.ds.film.two.known && decide (s.ds.film.two.stock < s.rs.constants.filmLow)]

/-- The detail of a condition for a port, while it is active (R68, R69, R149, R159, R168). -/
def State.condition (s : State) (p : Port) : Source → Option Nat
  | .baleFull => if s.cu.baleFull then some (s.seqIn .chamber) else none
  | .stockLow => if s.lowStocks = 0 then none else some s.lowStocks
  | .reports => if (s.na.get p).plan.trigger ≤ s.rq.queue.length then some s.rq.queue.length else none
  | .overpressure => if s.cu.lockout then some (s.seqIn .chamber) else none
  | .stop => if s.mi.stop.filtered then some 0 else none
  | _ => none

/-! ### Latches (R167) -/

/-- The latch places with one written. -/
def writePlace (l : PerSource Places) (src : Source) (i : Fin 4) (v : Option Nat) : PerSource Places :=
  l.set src ((l.get src).set i v)

/-- The state with a port's arbiter changed. -/
def State.modifyArbiter (s : State) (p : Port) (f : Arbiter → Arbiter) : State :=
  { s with na := s.na.set p (f (s.na.get p)) }

/-- The state with a latch place written on one port. -/
def State.writeLatch (s : State) (p : Port) (src : Source) (i : Fin 4) (v : Option Nat) : State :=
  s.modifyArbiter p (fun a => { a with latches := writePlace a.latches src i v })

/-- A latch setting handed to one port: the place is set and carries the detail (R167). While nRST is asserted the
arbiters take no setting (R171). -/
def setLatch (p : Port) (src : Source) (i : Fin 4) (detail : Nat) (s : State) : State :=
  { s with na := if s.nrstAsserted then s.na else (s.writeLatch p src i (some detail)).na }

/-- A latch setting handed to all three ports. -/
def setLatchAll (src : Source) (i : Fin 4) (detail : Nat) (s : State) : State :=
  setLatch .c src i detail (setLatch .b src i detail (setLatch .a src i detail s))

/-- The STAGE settings of R14: the zone as instance, the record's `seq` as detail. -/
def setStageLatches (z : Zone) (q : Nat) (s : State) : State := setLatchAll .stage z.number q s

/-! ### Bids and attention (R170, R171) -/

/-- A notice's bid: priority × 64 + source code × 4 + instance (R170). -/
def Notice.bid (n : Notice) : Nat := n.priority * 64 + n.source.code * 4 + n.inst.val

/-- The priority of a source on a port; that of REPORTS follows the report count (R170). -/
def State.priority (s : State) (p : Port) (src : Source) : Nat :=
  match src with
  | .reports => min 255 ((s.na.get p).plan.reportsBase + 8 * s.rq.queue.length)
  | _ => (s.na.get p).plan.priorities.get src

/-- The notice of one place or condition while it is active. -/
def State.noticeOf (s : State) (p : Port) (src : Source) (i : Fin 4) (detail : Option Nat) : List Notice :=
  match detail with
  | some d => [{ source := src, inst := i, priority := s.priority p src, detail := d }]
  | none => []

/-- The notices of one source that are active on a port: one for each set place of a latch, or the condition with
instance 0 (R170). -/
def State.activeNotices (s : State) (p : Port) (src : Source) : List Notice :=
  if src.isLatch then
    s.noticeOf p src 0 (((s.na.get p).latches.get src).get 0) ++
    s.noticeOf p src 1 (((s.na.get p).latches.get src).get 1) ++
    s.noticeOf p src 2 (((s.na.get p).latches.get src).get 2) ++
    s.noticeOf p src 3 (((s.na.get p).latches.get src).get 3)
  else s.noticeOf p src 0 (s.condition p src)

/-- The notices that bid on a port: those active there whose source is in the port's mask (R170). -/
def State.bidders (s : State) (p : Port) : List Notice :=
  allSources.flatMap (fun src => if (s.na.get p).plan.mask.get src then s.activeNotices p src else [])

/-- The greatest bid of a list of notices. -/
def greatestBid : List Notice → Option Notice
  | [] => none
  | n :: ns =>
    match greatestBid ns with
    | some m => if n.bid < m.bid then some m else some n
    | none => some n

/-- The winner of a port (R170). -/
def State.winner (s : State) (p : Port) : Option Notice := greatestBid (s.bidders p)

/-- The winner if its priority is above the port's threshold: what raises the line and what TAKE NOTICE captures
(R171, R172). -/
def State.offered (s : State) (p : Port) : Option Notice :=
  (s.winner p).filter (fun n => decide ((s.na.get p).plan.threshold < n.priority))

/-- Whether a port's attention line is asserted by R171. While nRST is asserted no line is. -/
def State.raised (s : State) (p : Port) : Bool := !s.nrstAsserted && (s.offered p).isSome

/-- The attention lines brought into line with R171. -/
def refreshAttention (s : State) : State :=
  { s with na :=
      { a := { s.na.a with attention := s.raised .a }
        b := { s.na.b with attention := s.raised .b }
        c := { s.na.c with attention := s.raised .c } } }

end Sys2Proof.Machine
end

