-- ==== Sys2Proof/Machine/Ops.lean ====
section
/-! DEFINITION. The shared operations of the blocks: conversions and auto-zero (chapter 2), the density drive and the net
figures (chapter 4), stage changes and closure (chapter 1), report arrival (chapter 8), the eject grant (chapter 5). -/

namespace Sys2Proof.Machine

/-! ### Channels (chapter 2) -/

/-- The top of a channel's range (Table 2-2); every range starts at 0. -/
def channelTop : Channel → Nat
  | .p => 25000
  | .d => 2000
  | .m => 800

/-- The engineering value of a raw code: the line of the calibration pair, truncated toward zero, clamped to the
channel range (R31). -/
def scale (k : Calibration) (top : Nat) (raw : Int) : Nat :=
  (clampInt ((k.eng0 : Int) + Int.tdiv ((raw - k.raw0) * ((k.eng1 : Int) - k.eng0)) (k.raw1 - k.raw0)) 0 top).toNat

/-- What a conversion completion stores, with the conversion timer restarted for one period (R29, R30). -/
def ChannelRecord.convert (c : ChannelRecord) (k : ChannelConstants) (top : Nat) (raw : Int) : ChannelRecord :=
  { c with raw := raw, saturated := decide (raw = 32767 ∨ raw = -32767), value := scale k.pair top raw, stale := false,
           convTimer := .running k.period }

/-- The start of an auto-zero cycle (R36). -/
def ChannelRecord.beginZero (c : ChannelRecord) : ChannelRecord :=
  { c with zeroing := true, stale := true, convTimer := .stopped }

/-- The automatic start: a debt of 1 or more, an empty hold set, no cycle running (R35). -/
def ChannelRecord.evalZero (c : ChannelRecord) : ChannelRecord :=
  if 1 ≤ c.debt ∧ c.hold.isEmpty = true ∧ c.zeroing = false then c.beginZero else c

/-- The end of an auto-zero cycle (R37). -/
def ChannelRecord.endZero (c : ChannelRecord) (k : ChannelConstants) : ChannelRecord :=
  { c with zeroing := false, debt := c.debt - 1, convTimer := .running k.period }

/-- The state with a channel record changed. -/
def State.modifyChannel (s : State) (ch : Channel) (f : ChannelRecord → ChannelRecord) : State :=
  { s with mf := s.mf.set ch (f (s.mf.get ch)) }

/-! ### Density drive (R69 to R73) -/

/-- The set pressure for a diameter, from the snapshot's profile (R70). -/
def setPressure (r : Recipe) (diameter : Nat) : Nat :=
  if diameter ≤ r.dc then r.pc
  else if r.dc + r.r ≤ diameter then r.ps
  else ((r.pc : Int) + Int.tdiv (((r.ps : Int) - r.pc) * ((diameter : Int) - r.dc)) r.r).toNat

/-- The valve code of a set pressure (R71). -/
def valveCode (k : Constants) (pset : Nat) : Nat :=
  (clampInt (k.dvOffset + ((pset * k.dvGain / 256 : Nat) : Int)) 0 65535).toNat

/-- The computed code recomputed from the held D value, if the chamber record is FORMING (R72). -/
def recomputeCode (s : State) : State :=
  match s.recordIn .chamber with
  | some b =>
    if b.stage = .forming then
      { s with cu := { s.cu with computedCode := valveCode s.rs.constants (setPressure b.recipe s.mf.d.value) } }
    else s
  | none => s

/-- What the DV code is to be: 0 under STOP, under the lockout or with no chamber record, else the computed code
(R73). -/
def State.dvTarget (s : State) : Nat :=
  if s.mi.stop.filtered = true ∨ s.cu.lockout = true ∨ s.recordIn .chamber = none then 0 else s.cu.computedCode

/-- The DV code brought into line (R73). -/
def syncDv (s : State) : State := { s with cu := { s.cu with dvCode := s.dvTarget } }

/-- Whether BALE_FULL is to be active: the chamber record is FORMING and the held D is at or above its target
diameter (R69). -/
def State.fullTarget (s : State) : Bool :=
  match s.recordIn .chamber with
  | some b => decide (b.stage = .forming ∧ b.recipe.targetDiameter ≤ s.mf.d.value)
  | none => false

/-- BALE_FULL re-evaluated (R69). -/
def syncFull (s : State) : State := { s with cu := { s.cu with baleFull := s.fullTarget } }

/-- CU after a change of the chamber record: BALE_FULL, then the DV code (R15, R69, R73). -/
def syncChamber (s : State) : State := syncDv (syncFull s)

/-! ### Net figures (R78, R80) -/

/-- The circumference in 0.1 mm, rounded half up (R78, R109). -/
def circumference (diameter : Nat) : Nat := (diameter * 31416 + 500) / 1000

/-- The net target in 0.1 mm (R78). -/
def netTarget (r : Recipe) (circ : Nat) : Nat := r.nt * circ / 10 + r.tail * 10

/-- The net actually laid before the tail, in tenths of a turn (R80). -/
def netTurnsOf (r : Recipe) (n : NetFields) : Nat := (n.metered - r.tail * 10) * 10 / n.circ

/-- The record's `net_diameter`; every record that reached NETTING has one (R109). -/
def Bale.netDiameter (b : Bale) : Nat :=
  match b.net with
  | some n => n.diameter
  | none => 0

/-! ### Stage changes (R5, R13, R14, R15) -/

/-- A timestamp that is kept once present (R13, `formed`). -/
def stampOnce (t : Option Nat) (clock : Nat) : Option Nat :=
  match t with
  | some x => some x
  | none => some clock

/-- `moisture_mean` at the entry to NETTED: absent if nothing was accumulated (R5). -/
def Bale.mean (b : Bale) : Option Nat :=
  if b.moistureCount = 0 then none else some (b.moistureSum / b.moistureCount)

/-- The record in its new stage, with that stage's timestamp (R13) and, at NETTED, the mean (R5). -/
def Bale.toStage (b : Bale) (st : Stage) (clock : Nat) : Bale :=
  { b with
    stage := st
    formed := if st = .forming then stampOnce b.formed clock else b.formed
    netStarted := if st = .netting then some clock else b.netStarted
    netted := if st = .netted then some clock else b.netted
    ejected := if st = .ejecting then some clock else b.ejected
    arrived := if st = .wrapping ∨ (st = .wrapped ∧ b.stage = .ejecting) then some clock else b.arrived
    wrapped := if st = .wrapped then some clock else b.wrapped
    moistureMean := if st = .netted then b.mean else b.moistureMean }

/-- Both film-silence counters at 0, as at an entry to WRAPPING (R134) and a change of `table_pulses` (R61). -/
def clearSilence (s : State) : State :=
  { s with ds := { s.ds with film :=
      ⟨{ s.ds.film.one with silence := 0 }, { s.ds.film.two with silence := 0 }⟩ } }

/-- What the neighbours do at a stage change into `st` of the record `q` (R15): CU recomputes on an entry to FORMING
(R72) and follows with BALE_FULL and the DV code; HU takes the reservation on an entry to EJECTING (R89); DS clears the
silence counters on an entry to WRAPPING (R134). -/
def stageNeighbours (st : Stage) (q : Nat) (s : State) : State :=
  match st with
  | .forming => syncChamber (recomputeCode s)
  | .ejecting => syncChamber { s with hu := { s.hu with reservation := some q } }
  | .wrapping => clearSilence (syncChamber s)
  | _ => syncChamber s

/-- A stage change of the record in a zone: the stage and its timestamp (R13), the STAGE settings with the zone after
the change (R14), the neighbours (R15). -/
def enterStage (z : Zone) (st : Stage) (s : State) : State :=
  match s.recordIn z with
  | some b =>
    stageNeighbours st b.seq
      (setStageLatches st.zone b.seq (s.modifyRecord z (fun x => x.toStage st s.bt.runClock)))
  | none => s

/-- A record as OPEN BALE creates it (Table 1-1, R17), in GATHERING or FORMING. -/
def newRecord (q slot : Nat) (r : Recipe) (st : Stage) (clock : Nat) : Bale :=
  { seq := q, recipeIndex := slot, recipe := r, stage := st, opened := clock,
    formed := if st = .forming then some clock else none, netStarted := none, netted := none, ejected := none,
    arrived := none, wrapped := none, closed := none, flags := noFlags, moistureSum := 0, moistureCount := 0,
    moistureMean := none, peakPressure := 0, netAttempts := 0, net := none, netTurns := none, ejectRequested := false,
    wrap := none, closeReason := none }

/-! ### Report arrival (R157) -/

/-- A report offered to RQ: it joins the tail, enters the holding slot, or displaces the held report (R157). -/
def ReportQueue.offer (q : ReportQueue) (r : Report) : ReportQueue :=
  if q.queue.length < 16 then { q with queue := q.queue ++ [r] }
  else
    match q.holding with
    | none => { q with holding := some r }
    | some _ => { q with holding := some r, lost := stepSaturating q.lost 65535, overrun := true }

/-! ### The eject grant (R92, R93) -/

/-- The grant of the eject of the NETTED chamber record, at once (R91) or from the queue (R93). -/
def grantEject (queued : Bool) (s : State) : State :=
  match s.recordIn .chamber with
  | some b =>
    let emptied : State :=
      { s.modifyRecord .chamber (fun x => { x with ejectRequested := false }) with
        hu := { s.hu with ejectSlot := none } }
    let moved := enterStage .chamber .ejecting emptied
    let timed : State :=
      { moved with hu := { moved.hu with transferTimer := .running (moved.rs.constants.transferTimeout * 1000) } }
    if queued then setLatch .a .ejectGrant 0 b.seq timed else timed
  | none => s

/-- Whether the waiting request can be granted: the slot names the NETTED chamber record and no obstacle stands
(R93). -/
def State.grantable (s : State) : Bool :=
  match s.hu.ejectSlot, s.recordIn .chamber with
  | some q, some b =>
    decide (b.seq = q ∧ b.stage = .netted) && s.hu.reservation.isNone && !s.hu.tableHold && !s.mi.stop.filtered
  | _, _ => false

/-- HU's evaluation of the waiting request (R93). -/
def evalGrant (s : State) : State := if s.grantable then grantEject true s else s

/-! ### Closure (R22, R24) -/

/-- What the neighbours do after a closure from a zone (R24). A pin reset's closure grants nothing (R26, R93). -/
def closureNeighbours (z : Zone) (q : Nat) (reason : CloseReason) (s : State) : State :=
  match z with
  | .pre => s
  | .chamber =>
    syncChamber
      { s with
        cu := { s.cu with netCatchTimer := .stopped }
        hu := { s.hu with ejectSlot := if s.hu.ejectSlot = some q then none else s.hu.ejectSlot } }
  | .table =>
    let freed : State := { s with hu := { s.hu with reservation := none, transferTimer := .stopped } }
    if reason = .reset then freed else evalGrant freed

/-- The closure of the record in a zone (R22): stamped, removed, offered as a report, notified unless by RESET (R26),
neighbours informed. The report keeps the other fields as they stand (log entry 11). -/
def closeRecord (z : Zone) (reason : CloseReason) (s : State) : State :=
  match s.recordIn z with
  | some b =>
    let removed : State :=
      { s with
        bt := { s.bt with bales := removeZone z s.bt.bales }
        rq := s.rq.offer { b with closed := some s.bt.runClock, closeReason := some reason } }
    closureNeighbours z b.seq reason (if reason = .reset then removed else setStageLatches z b.seq removed)
  | none => s

/-! ### The return from NETTING (R82, R83) -/

/-- The net-catch timer stopped and the NETTING record moved back to FORMING (R82 steps 1 to 3, R83). -/
def returnToForming (s : State) : State :=
  enterStage .chamber .forming { s with cu := { s.cu with netCatchTimer := .stopped } }

end Sys2Proof.Machine
end

