-- ==== Sys2Proof/Machine/Coverage.lean ====
section
/-! DEFINITION. The wrap: layer target, lays, film charges, completion and cap (chapter 6), film silence and breaks
(chapter 7). -/

namespace Sys2Proof.Machine

/-! ### Arrival (R105 to R108) -/

/-- The layer target from the mean and the snapshot's bands; an unknown mean counts as wet (R106). -/
def layerTargetOf (r : Recipe) (mean : Option Nat) : Nat :=
  match mean with
  | some m => if m ≤ r.m1 then r.l1 else if m ≤ r.m2 then r.l2 else r.l3
  | none => r.l3

/-- The wrap section at the entry to WRAPPING (Table 6-1, R108). -/
def newWrap (target circ : Nat) : WrapSection :=
  { layerTarget := target, circ := circ, surfacePos := 0, layers := List.replicate 64 0, revolutions := 0, lays1 := 0,
    lays2 := 0, film1 := 0, film2 := 0, breaks := [], breakCount := 0 }

/-- CV's part of an arrival: target and MOISTURE_UNKNOWN (R106), then WRAPPED as a net-only bale (R107) or WRAPPING with
a wrap section (R108). -/
def arriveCoverage (b : Bale) (s : State) : State :=
  let target := layerTargetOf b.recipe b.moistureMean
  let flagged := if b.moistureMean = none then s.flagRecord .table (fun f => { f with moistureUnknown := true }) else s
  if target = 0 then
    setLatch .b .wrapDone 1 b.seq (enterStage .table .wrapped flagged)
  else
    enterStage .table .wrapping
      (flagged.modifyRecord .table (fun x => { x with wrap := some (newWrap target (circumference b.netDiameter)) }))

/-! ### A lay (R113 to R120) -/

/-- The band width in 0.1 mm, held below the circumference (R114). -/
def bandWidth (k : Constants) (r : Recipe) (circ : Nat) : Nat :=
  let w := k.filmWidth * (1000 - r.neck) / 100
  if circ ≤ w then circ - 1 else w

/-- The centre of a sector in 0.1 mm from the origin (R115). -/
def sectorCentre (circ sector : Nat) : Nat := (2 * sector + 1) * circ / 128

/-- Whether a band of width `w` laid at `pos` covers a sector (R116). -/
def covers (circ pos w sector : Nat) : Bool :=
  decide ((((sectorCentre circ sector : Nat) : Int) - pos) % (circ : Int) < (w : Int))

/-- One layer more on each covered sector, counts saturating at 31, from sector `sector` on (R116). -/
def addLayer (circ pos w : Nat) : Nat → List Nat → List Nat
  | _, [] => []
  | sector, n :: ns =>
    (if covers circ pos w sector then stepSaturating n 31 else n) :: addLayer circ pos w (sector + 1) ns

/-- The lowest count of a map (R119). -/
def lowestCount : List Nat → Nat
  | [] => 0
  | [n] => n
  | n :: m :: ns => min n (lowestCount (m :: ns))

/-- Steps 1 and 2 of a counted lay: coverage, then the dispenser's lay count (R117). -/
def WrapSection.lay (w : WrapSection) (k : Dispenser) (width : Nat) : WrapSection :=
  match k with
  | .one => { w with layers := addLayer w.circ w.surfacePos width 0 w.layers, lays1 := stepSaturating w.lays1 65535 }
  | .two => { w with layers := addLayer w.circ w.surfacePos width 0 w.layers, lays2 := stepSaturating w.lays2 65535 }

/-- A film total after `mm` more (R142). Past 4,294,967,295 mm, the top of Table 6-1's range, which only lays beyond the
saturated lay count can reach, the spec states no value: it is a free value (log entry 26). -/
def filmSum (film mm : Nat) : Nat :=
  if film + mm ≤ 4294967295 then film + mm else (Config.freeFilm (film + mm)).toNat

/-- The film charged to the bale (R142, R143). -/
def WrapSection.addFilm (w : WrapSection) (k : Dispenser) (mm : Nat) : WrapSection :=
  match k with
  | .one => { w with film1 := filmSum w.film1 mm }
  | .two => { w with film2 := filmSum w.film2 mm }

/-- The numerator of a film charge: the stretched length × 100 plus the residue (R142). -/
def filmNumerator (k : Constants) (diameter residue : Nat) : Nat := 2 * (k.baleWidth + diameter) * 100 + residue

/-- Whether a charge brings a known stock to 0 (R143). -/
def DispenserRecord.shortOf (d : DispenserRecord) (charge : Nat) : Bool := d.known && decide (d.stock ≤ charge)

/-- What the bale is charged: the charge, limited to a known stock (R143). -/
def DispenserRecord.taken (d : DispenserRecord) (charge : Nat) : Nat := if d.shortOf charge then d.stock else charge

/-- The dispenser after a charge: the residue, and a known stock less what was taken (R142, R143). -/
def DispenserRecord.afterCharge (d : DispenserRecord) (numerator divisor : Nat) : DispenserRecord :=
  { d with residue := numerator % divisor,
           stock := if d.known then d.stock - d.taken (numerator / divisor) else d.stock }

/-- The state with a dispenser record changed. -/
def State.modifyDispenser (s : State) (k : Dispenser) (f : DispenserRecord → DispenserRecord) : State :=
  { s with ds := { s.ds with film := s.ds.film.set k (f (s.ds.film.get k)) } }

/-- The charge of a lay by dispenser `k` on record `b`, in mm of film (R142). -/
def State.layCharge (s : State) (k : Dispenser) (b : Bale) : Nat :=
  filmNumerator s.rs.constants b.netDiameter (s.ds.film.get k).residue / (100 + b.recipe.s)

/-- Step 3 of a counted lay: the film charge (R142, R143). -/
def chargeFilm (k : Dispenser) (b : Bale) (s : State) : State :=
  let charge := s.layCharge k b
  let d := s.ds.film.get k
  let charged := (s.modifyWrap (fun w => w.addFilm k (d.taken charge))).modifyDispenser k
    (fun x => x.afterCharge (filmNumerator s.rs.constants b.netDiameter d.residue) (100 + b.recipe.s))
  if d.shortOf charge then charged.flagRecord .table (fun f => { f with filmShort := true }) else charged

/-- Step 4 of a counted lay: the completion test (R119). -/
def testCompletion (s : State) : State :=
  match s.wrapping with
  | some (b, w) =>
    if w.layerTarget ≤ lowestCount w.layers then
      setLatch .b .wrapDone 0 b.seq (enterStage .table .wrapped s)
    else s
  | none => s

/-- The end of a lay that brought a known stock to 0: the dispenser becomes EMPTY, with FILM on port B (R143). -/
def emptyDispenser (k : Dispenser) (q : Nat) (s : State) : State :=
  setLatch .b .film (dispenserInst k) q (s.modifyDispenser k (fun d => { d with state := .empty }))

/-- A counted lay of dispenser `k` on the WRAPPING record (R117, R143). -/
def countedLay (k : Dispenser) (b : Bale) (w : WrapSection) (s : State) : State :=
  let laid := s.modifyWrap (fun x => x.lay k (bandWidth s.rs.constants b.recipe w.circ))
  let tested := testCompletion (chargeFilm k b laid)
  if (s.ds.film.get k).shortOf (s.layCharge k b) then emptyDispenser k b.seq tested else tested

/-- A lay position of dispenser `k`: counted if a record is WRAPPING, the dispenser RUNNING and STOP not asserted
(R113). -/
def layPosition (k : Dispenser) (s : State) : State :=
  match s.wrapping with
  | some (b, w) =>
    if (s.ds.film.get k).state = .running ∧ s.mi.stop.filtered = false then countedLay k b w s else s
  | none => s

/-- The revolution cap (R122). -/
def capWrap (s : State) : State :=
  match s.wrapping with
  | some (b, w) =>
    if b.recipe.maxRevs ≤ w.revolutions then
      setLatch .b .wrapDone 2 b.seq
        (enterStage .table .wrapped (s.flagRecord .table (fun f => { f with underwrapped := true })))
    else s
  | none => s

/-- The revolution part of a TABLE_INDEX: steps 2 and 3 of R121. -/
def stepRevolution (s : State) : State :=
  capWrap (s.modifyWrap (fun w => { w with revolutions := stepSaturating w.revolutions 255 }))

/-! ### Film silence (R134 to R137) -/

/-- A break recorded on the wrap section (R137). -/
def WrapSection.addBreak (w : WrapSection) (k : Dispenser) (clock : Nat) : WrapSection :=
  { w with
    breaks := if w.breaks.length < 6 then w.breaks ++ [⟨k, w.revolutions, w.surfacePos, clock⟩] else w.breaks
    breakCount := stepSaturating w.breakCount 255 }

/-- A RUNNING dispenser breaks: BROKEN, the break recorded, FILM on port B (R135). -/
def breakFilm (k : Dispenser) (q : Nat) (s : State) : State :=
  setLatch .b .film (dispenserInst k) q
    ((s.modifyDispenser k (fun d => { d with state := .broken })).modifyWrap (fun w => w.addBreak k s.bt.runClock))

/-- The silence step of one dispenser while the record `q` is WRAPPING (R135). -/
def stepSilence (k : Dispenser) (q : Nat) (s : State) : State :=
  let limit := s.rs.constants.tablePulses / 4
  let d := s.ds.film.get k
  let stepped := s.modifyDispenser k (fun x => { x with silence := stepSaturating x.silence limit })
  if d.silence < limit ∧ d.silence + 1 = limit ∧ d.state = .running then breakFilm k q stepped else stepped

/-- The silence step of both dispensers, 1 first, while a record is WRAPPING (R135). -/
def stepSilences (s : State) : State :=
  match s.wrapping with
  | some (b, _) => stepSilence .two b.seq (stepSilence .one b.seq s)
  | none => s

end Sys2Proof.Machine
end

