-- ==== Sys2Proof/Machine/Inputs.lean ====
section
/-! DEFINITION. The machine's inputs: level inputs (R43 to R46) with what STOP and TABLE_LOADED do, pulses (R47 to R50),
conversions and zero-due timers (chapter 2), the net-catch and transfer timers, the run clock and the PDM stage. -/

namespace Sys2Proof.Machine

/-! ### Level inputs -/

/-- A level input's record. -/
def MachineInputs.level (x : MachineInputs) : LevelInput → LevelLine
  | .stop => x.stop
  | .tailgate => x.tailgate
  | .tableLoaded => x.tableLoaded

/-- The state with a level input's record changed. -/
def State.modifyLevel (s : State) (i : LevelInput) (f : LevelLine → LevelLine) : State :=
  match i with
  | .stop => { s with mi := { s.mi with stop := f s.mi.stop } }
  | .tailgate => { s with mi := { s.mi with tailgate := f s.mi.tailgate } }
  | .tableLoaded => { s with mi := { s.mi with tableLoaded := f s.mi.tableLoaded } }

/-- The pin comes to a level: the stability timer starts at a difference and stops at a return (R43). A timer that is
running goes on; a pin event that brings no change is none (log entry 20). -/
def LevelLine.pinTo (x : LevelLine) (v : Bool) : LevelLine :=
  if v = x.pin then x
  else if v = x.filtered then { x with pin := v, timer := .stopped }
  else { x with pin := v, timer := .running stabilityMs }

/-- The filtered level takes the pin level (R43). -/
def LevelLine.settle (x : LevelLine) : LevelLine := { x with filtered := x.pin, timer := .stopped }

/-! ### STOP (R10, R45, R85, R100) -/

/-- STOP_SEEN on every live record (R10). -/
def flagStopSeen (s : State) : State :=
  { s with bt := { s.bt with bales := s.bt.bales.map (fun b => { b with flags := { b.flags with stopSeen := true } }) } }

/-- STOP rising: STOP_SEEN (R10), the DV code to 0 and a RUNNING net-catch timer suspended (R85), a RUNNING transfer
timer suspended (R100). -/
def stopRising (s : State) : State :=
  syncDv
    { flagStopSeen s with
      cu := { s.cu with netCatchTimer := s.cu.netCatchTimer.suspend }
      hu := { s.hu with transferTimer := s.hu.transferTimer.suspend } }

/-- STOP falling: the computed code recomputed for a FORMING record and the DV code brought into line (R72, R73), the
SUSPENDED timers restarted at full duration (R81, R96), the waiting request evaluated (R100). -/
def stopFalling (s : State) : State :=
  let recomputed := recomputeCode s
  evalGrant (syncDv
    { recomputed with
      cu := { recomputed.cu with
        netCatchTimer := recomputed.cu.netCatchTimer.resume (s.rs.constants.netCatchTimeout * 100) }
      hu := { recomputed.hu with
        transferTimer := recomputed.hu.transferTimer.resume (s.rs.constants.transferTimeout * 1000) } })

/-! ### TABLE_LOADED (R97, R99, R105, R110, R127, R128) -/

/-- HU's part of an arrival (R97). -/
def arriveHandover (q : Nat) (s : State) : State :=
  setLatch .b .transfer 0 q { s with hu := { s.hu with transferTimer := .stopped } }

/-- An unexpected load (R99, R110). -/
def unexpectedLoad (s : State) : State := setLatch .b .tableUnexpected 0 (s.hu.reservation.getD 0) s

/-- TABLE_LOADED rising: the arrival of the EJECTING record, for HU and CV, or an unexpected load (R46, R97, R105). -/
def tableLoadedRising (s : State) : State :=
  match s.recordIn .table with
  | some b => if b.stage = .ejecting then arriveCoverage b (arriveHandover b.seq s) else unexpectedLoad s
  | none => unexpectedLoad s

/-- TABLE_LOADED falling: the closure of a WRAPPING, WRAPPED or TIPPING record (R127), nothing otherwise (R128). -/
def tableLoadedFalling (s : State) : State :=
  match s.recordIn .table with
  | some b =>
    match b.stage with
    | .tipping => closeRecord .table .done s
    | .wrapped => closeRecord .table .done (s.flagRecord .table (fun f => { f with uncommandedTip := true }))
    | .wrapping => closeRecord .table .dropped s
    | _ => s
  | none => s

/-- A filtered change handed on (R45, R46). TAILGATE's is handed to no block. -/
def levelArrival (i : LevelInput) (rising : Bool) (s : State) : State :=
  match i with
  | .stop => if rising then stopRising s else stopFalling s
  | .tailgate => s
  | .tableLoaded => if rising then tableLoadedRising s else tableLoadedFalling s

/-- The expiry of a stability timer (R43). While nRST is asserted the filtered level changes and is handed to no
consumer (R44). -/
def stabilityExpiry (i : LevelInput) (s : State) : State :=
  let x := s.mi.level i
  if x.timer.isRunning = false then s
  else
    let settled := s.modifyLevel i LevelLine.settle
    if s.nrstAsserted = true ∨ x.pin = x.filtered then settled else levelArrival i x.pin settled

/-! ### Pulses (R47 to R50) -/

/-- The table angle stepped by a pulse: from Tp − 1 to 0 (R48). -/
def angleAfter (tp angle : Nat) : Nat := if angle + 1 < tp then angle + 1 else 0

/-- The state with the table angle counter written. -/
def State.withAngle (s : State) (n : Nat) : State := { s with mi := { s.mi with angle := n } }

/-- A TABLE_PULSE arrival in the order of R49: the angle, the silence counters, the dispenser-2 lay position. -/
def tablePulse (s : State) : State :=
  let angle := angleAfter s.rs.constants.tablePulses s.mi.angle
  let silent := stepSilences (s.withAngle angle)
  if angle = s.rs.constants.tablePulses / 2 then layPosition .two silent else silent

/-- A TABLE_INDEX arrival: the angle to 0 (R48), then R121. The revolution part is for a record that was WRAPPING when
the arrival came, also when the lay has just completed its wrap. -/
def tableIndex (s : State) : State :=
  let laid := layPosition .one (s.withAngle 0)
  if s.wrapping.isSome then stepRevolution laid else laid

/-- A BALE_ROLL arrival (R111). -/
def baleRoll (s : State) : State :=
  match s.wrapping with
  | some _ => s.modifyWrap (fun w => { w with surfacePos := (w.surfacePos + s.rs.constants.rollStep) % w.circ })
  | none => s

/-- The charge of a NET_ROLL arrival to a known net stock (R145). -/
def chargeNet (s : State) : State :=
  { s with ds := { s.ds with
      netStock := if s.ds.netKnown then s.ds.netStock - s.rs.constants.netStep else s.ds.netStock } }

/-- Netting completed on the chamber record (R80). -/
def completeNetting (b : Bale) (n : NetFields) (s : State) : State :=
  setLatch .a .netDone 0 b.seq
    (enterStage .chamber .netted (s.modifyRecord .chamber (fun x => { x with netTurns := some (netTurnsOf b.recipe n) })))

/-- CU's part of a NET_ROLL arrival (R79). -/
def meterNet (s : State) : State :=
  match s.recordIn .chamber with
  | some b =>
    match b.stage, b.net with
    | .netting, some n =>
      let n' := { n with metered := n.metered + s.rs.constants.netStep }
      let metered : State :=
        { s.modifyRecord .chamber (fun x => { x with net := some n' }) with
          cu := { s.cu with netCatchTimer := .stopped } }
      if n'.target ≤ n'.metered then completeNetting b n' metered else metered
    | _, _ => s
  | none => s

/-- A NET_ROLL arrival, for CU and DS (R47, R79, R145). -/
def netRoll (s : State) : State := chargeNet (meterNet s)

/-- A FILM1 or FILM2 arrival (R136). -/
def filmPulse (k : Dispenser) (s : State) : State := s.modifyDispenser k (fun d => { d with silence := 0 })

/-! ### Conversions and the zero-due timer (chapter 2) -/

/-- The lockout after a P completion (R67). -/
def lockoutAfter (k : Constants) (before : Bool) (value : Nat) : Bool :=
  if before then decide (k.opLimit - k.opHyst ≤ value) else decide (k.opLimit < value)

/-- `peak_pressure` after a P completion (R65). -/
def Bale.withPressure (b : Bale) (value : Nat) : Bale :=
  if b.stage = .forming ∨ b.stage = .netting then { b with peakPressure := max b.peakPressure value } else b

/-- CU's use of a P completion: peak pressure (R65), the lockout and its flag (R67), the DV code (R73). -/
def usePressure (value : Nat) (s : State) : State :=
  let peaked := s.modifyRecord .chamber (·.withPressure value)
  let tested : State :=
    { peaked with cu := { peaked.cu with lockout := lockoutAfter s.rs.constants s.cu.lockout value } }
  syncDv (if tested.cu.lockout then tested.flagRecord .chamber (fun f => { f with overpressureSeen := true }) else tested)

/-- CU's use of a D completion: the computed code of a FORMING record (R72), BALE_FULL (R69), the DV code (R73). -/
def useDiameter (s : State) : State := syncChamber (recomputeCode s)

/-- The record after an M completion (R66). -/
def Bale.withMoisture (b : Bale) (value : Nat) : Bale :=
  if b.stage = .forming ∧ b.moistureCount < 65535 then
    { b with moistureSum := b.moistureSum + value, moistureCount := b.moistureCount + 1 }
  else b

/-- CU's use of an M completion (R66). -/
def useMoisture (value : Nat) (s : State) : State := s.modifyRecord .chamber (·.withMoisture value)

/-- The hand-off of a completion to its consumer (Table 2-4). -/
def handOff (ch : Channel) (value : Nat) (s : State) : State :=
  match ch with
  | .p => usePressure value s
  | .d => useDiameter s
  | .m => useMoisture value s

/-- A conversion completion in the order of R30. With the conversion timer stopped there is none (R36, R42). -/
def conversionCompletion (ch : Channel) (raw : Int) (s : State) : State :=
  if s.nrstAsserted = true ∨ (s.mf.get ch).convTimer.isRunning = false then s
  else
    let stored := s.modifyChannel ch (·.convert (s.rs.chan.get ch) (channelTop ch) raw)
    (handOff ch (stored.mf.get ch).value stored).modifyChannel ch ChannelRecord.evalZero

/-- A zero-due expiry (R34). While nRST is asserted there is none (R42); a timer that is not running does not expire (log
entry 5). -/
def zeroDueExpiry (ch : Channel) (s : State) : State :=
  if s.nrstAsserted = true ∨ (s.mf.get ch).zeroDueTimer.isRunning = false then s
  else if (s.mf.get ch).debt < 8 then
    s.modifyChannel ch (fun c => { c with debt := c.debt + 1, zeroDueTimer := .running zeroDueMs }.evalZero)
  else if (s.mf.get ch).zeroing = false then
    setLatchAll .zeroForced (channelInst ch) (channelNumber ch)
      (s.modifyChannel ch (fun c => { c with zeroDueTimer := .running zeroDueMs }.beginZero))
  else s.modifyChannel ch (fun c => { c with zeroDueTimer := .running zeroDueMs })

/-- The end of an auto-zero cycle (R37). -/
def autoZeroCompletion (ch : Channel) (s : State) : State :=
  if s.nrstAsserted = true ∨ (s.mf.get ch).zeroing = false then s
  else s.modifyChannel ch (·.endZero (s.rs.chan.get ch))

/-! ### The net-catch and transfer timers -/

/-- The expiry of the net-catch timer (R82). A timer that is not RUNNING does not expire (R81). -/
def netCatchExpiry (s : State) : State :=
  match s.recordIn .chamber with
  | some b =>
    if s.cu.netCatchTimer.isRunning = true ∧ b.stage = .netting then
      setLatch .a .netMiss 0 b.seq (returnToForming s)
    else s
  | none => s

/-- The expiry of the transfer timer (R98). A timer that is not RUNNING does not expire (R96). -/
def transferExpiry (s : State) : State :=
  match s.recordIn .table with
  | some b =>
    if s.hu.transferTimer.isRunning = true ∧ b.stage = .ejecting then
      setLatch .b .transfer 1 b.seq (setLatch .a .transfer 1 b.seq
        ({ s with hu := { s.hu with transferTimer := .stopped } }.flagRecord .table
          (fun f => { f with transferFault := true })))
    else s
  | none => s

/-! ### The rows -/

/-- RUN_CLOCK_TICK (R12). -/
def execRunClockTick (s : State) : Host.Outcome State Fault Refusal :=
  .next { s with bt := { s.bt with runClock := if s.bt.runClock < 4294967295 then s.bt.runClock + 1 else 0 } }

/-- PDM_OUTPUT_SLOT (R74). -/
def execPdmOutputSlot (s : State) : Host.Outcome State Fault Refusal :=
  .next { s with cu := { s.cu with
      dvout := decide (65536 ≤ s.cu.pdmAcc + s.cu.dvCode)
      pdmAcc := if 65536 ≤ s.cu.pdmAcc + s.cu.dvCode then s.cu.pdmAcc + s.cu.dvCode - 65536
                else s.cu.pdmAcc + s.cu.dvCode } }

/-- LEVEL_PIN_CHANGE (R43). -/
def execLevelPinChange (i : LevelInput) (v : Bool) (s : State) : Host.Outcome State Fault Refusal :=
  .next (s.modifyLevel i (·.pinTo v))

/-- STABILITY_TIMER_EXPIRY (R43 to R46). -/
def execStabilityTimerExpiry (i : LevelInput) (s : State) : Host.Outcome State Fault Refusal :=
  .next (refreshAttention (stabilityExpiry i s))

/-- TABLE_PULSE (R47, R49). -/
def execTablePulse (s : State) : Host.Outcome State Fault Refusal :=
  .next (refreshAttention (if s.nrstAsserted then s else tablePulse s))

/-- TABLE_INDEX (R47, R121). -/
def execTableIndex (s : State) : Host.Outcome State Fault Refusal :=
  .next (refreshAttention (if s.nrstAsserted then s else tableIndex s))

/-- BALE_ROLL (R47, R111). -/
def execBaleRoll (s : State) : Host.Outcome State Fault Refusal :=
  .next (refreshAttention (if s.nrstAsserted then s else baleRoll s))

/-- NET_ROLL (R47, R79, R145). -/
def execNetRoll (s : State) : Host.Outcome State Fault Refusal :=
  .next (refreshAttention (if s.nrstAsserted then s else netRoll s))

/-- FILM_PULSE (R47, R136). -/
def execFilmPulse (k : Dispenser) (s : State) : Host.Outcome State Fault Refusal :=
  .next (refreshAttention (if s.nrstAsserted then s else filmPulse k s))

/-- CONVERSION_COMPLETION (R30). -/
def execConversionCompletion (ch : Channel) (raw : Int) (s : State) : Host.Outcome State Fault Refusal :=
  .next (refreshAttention (conversionCompletion ch raw s))

/-- ZERO_DUE_EXPIRY (R34). -/
def execZeroDueExpiry (ch : Channel) (s : State) : Host.Outcome State Fault Refusal :=
  .next (refreshAttention (zeroDueExpiry ch s))

/-- AUTO_ZERO_COMPLETION (R37). -/
def execAutoZeroCompletion (ch : Channel) (s : State) : Host.Outcome State Fault Refusal :=
  .next (refreshAttention (autoZeroCompletion ch s))

/-- NET_CATCH_EXPIRY (R82). -/
def execNetCatchExpiry (s : State) : Host.Outcome State Fault Refusal :=
  .next (refreshAttention (netCatchExpiry s))

/-- TRANSFER_TIMER_EXPIRY (R98). -/
def execTransferTimerExpiry (s : State) : Host.Outcome State Fault Refusal :=
  .next (refreshAttention (transferExpiry s))

end Sys2Proof.Machine
end

