-- ==== Sys2Proof/Machine/Images.lean ====
section
/-! DEFINITION. The images (Table 10-4), the recipe block and the constants block, and the transfer image of a port with
its chunks (R194, R195). -/

namespace Sys2Proof.Machine

/-! ### Blocks -/

/-- The recipe block: 24 bytes in the order of Table 3-1 (section 10.4). -/
def recipeBlock (r : Recipe) : List Byte :=
  byte2 r.targetDiameter ++ byte2 r.dc ++ byte2 r.pc ++ byte2 r.ps ++ byte2 r.r ++ byte1 r.nt ++ byte2 r.tail ++
  byte2 r.m1 ++ byte2 r.m2 ++ byte1 r.l1 ++ byte1 r.l2 ++ byte1 r.l3 ++ byte2 r.neck ++ byte1 r.s ++ byte1 r.maxRevs

/-- The fifteen values a recipe block at an offset carries, as written. -/
def readRecipeBlock (pl : List Byte) (at_ : Nat) : Recipe :=
  { targetDiameter := nat2 pl at_, dc := nat2 pl (at_ + 2), pc := nat2 pl (at_ + 4), ps := nat2 pl (at_ + 6),
    r := nat2 pl (at_ + 8), nt := nat1 pl (at_ + 10), tail := nat2 pl (at_ + 11), m1 := nat2 pl (at_ + 13),
    m2 := nat2 pl (at_ + 15), l1 := nat1 pl (at_ + 17), l2 := nat1 pl (at_ + 18), l3 := nat1 pl (at_ + 19),
    neck := nat2 pl (at_ + 20), s := nat1 pl (at_ + 22), maxRevs := nat1 pl (at_ + 23) }

/-- The group-3 constants: 28 bytes in the order of Table 3-2 (section 10.4). -/
def constantsBlock (k : Constants) : List Byte :=
  byte2 k.baleWidth ++ byte2 k.filmWidth ++ byte2 k.rollStep ++ byte2 k.netStep ++ byte2 k.tablePulses ++
  byte1 k.transferTimeout ++ byte1 k.netCatchTimeout ++ byte2 k.opLimit ++ byte2 k.opHyst ++ signed2 k.dvOffset ++
  byte2 k.dvGain ++ byte4 k.netLow ++ byte4 k.filmLow

/-- The thirteen values a constants block at an offset carries, as written. -/
def readConstantsBlock (pl : List Byte) (at_ : Nat) : Constants :=
  { baleWidth := nat2 pl at_, filmWidth := nat2 pl (at_ + 2), rollStep := nat2 pl (at_ + 4),
    netStep := nat2 pl (at_ + 6), tablePulses := nat2 pl (at_ + 8), transferTimeout := nat1 pl (at_ + 10),
    netCatchTimeout := nat1 pl (at_ + 11), opLimit := nat2 pl (at_ + 12), opHyst := nat2 pl (at_ + 14),
    dvOffset := int2 pl (at_ + 16), dvGain := nat2 pl (at_ + 18), netLow := nat4 pl (at_ + 20),
    filmLow := nat4 pl (at_ + 24) }

/-- A calibration pair: raw0, eng0, raw1, eng1, two bytes each (section 10.4). -/
def pairBlock (k : Calibration) : List Byte := signed2 k.raw0 ++ byte2 k.eng0 ++ signed2 k.raw1 ++ byte2 k.eng1

/-- The pair at an offset, as written. -/
def readPairBlock (pl : List Byte) (at_ : Nat) : Calibration :=
  { raw0 := int2 pl at_, eng0 := nat2 pl (at_ + 2), raw1 := int2 pl (at_ + 4), eng1 := nat2 pl (at_ + 6) }

/-! ### The bale image (Table 10-4) -/

/-- An absent field is carried as 0 (R193). -/
def orZero (x : Option Nat) : Nat := x.getD 0

/-- The net fields, 0 while absent (R193). -/
def Bale.netOrZero (b : Bale) : NetFields := b.net.getD ⟨0, 0, 0, 0⟩

/-- The presence marks of a bale image (Table 10-4). -/
def Bale.presence (b : Bale) : Nat :=
  marks [b.formed.isSome, b.netStarted.isSome, b.netted.isSome, b.ejected.isSome, b.arrived.isSome, b.wrapped.isSome,
    b.closed.isSome, b.moistureMean.isSome, b.net.isSome, b.netTurns.isSome, b.wrap.isSome]

/-- The base part, 90 bytes (Table 10-4). -/
def basePart (b : Bale) : List Byte :=
  byte2 b.seq ++ byte1 b.recipeIndex ++ byte1 b.stage.code ++ byte1 (closeReasonCode b.closeReason) ++
  byte2 b.presence ++ byte2 b.flags.marks ++
  byte4 b.opened ++ byte4 (orZero b.formed) ++ byte4 (orZero b.netStarted) ++ byte4 (orZero b.netted) ++
  byte4 (orZero b.ejected) ++ byte4 (orZero b.arrived) ++ byte4 (orZero b.wrapped) ++ byte4 (orZero b.closed) ++
  byte4 b.moistureSum ++ byte2 b.moistureCount ++ byte2 (orZero b.moistureMean) ++
  byte2 b.peakPressure ++ byte1 b.netAttempts ++
  byte2 b.netOrZero.diameter ++ byte2 b.netOrZero.circ ++ byte4 b.netOrZero.target ++ byte4 b.netOrZero.metered ++
  byte1 (orZero b.netTurns) ++ flag1 b.ejectRequested ++ recipeBlock b.recipe

/-- The wrap part, 84 bytes (Table 10-4). -/
def wrapPart (w : WrapSection) : List Byte :=
  byte1 w.layerTarget ++ byte2 w.circ ++ byte2 w.surfacePos ++ byte1 w.revolutions ++ byte2 w.lays1 ++
  byte2 w.lays2 ++ byte4 w.film1 ++ byte4 w.film2 ++ byte1 w.breakCount ++ byte1 w.breaks.length ++
  w.layers.map (fun n => BitVec.ofNat 8 n)

/-- A break entry, 8 bytes (Table 10-4). -/
def breakPart (e : BreakEntry) : List Byte :=
  byte1 (dispenserNumber e.dispenser) ++ byte1 e.revolutions ++ byte2 e.surfacePos ++ byte4 e.time

/-- The image of a record or a report: base part, wrap part if present, one entry per break (R156, R194). -/
def baleImage (b : Bale) : List Byte :=
  basePart b ++
  match b.wrap with
  | some w => wrapPart w ++ w.breaks.flatMap breakPart
  | none => []

/-- The image of READ RECIPE: 26 bytes (R57). -/
def recipeImage (slot : Nat) (x : RecipeSlot) : List Byte := byte1 slot ++ flag1 x.valid ++ recipeBlock x.recipe

/-! ### The link unit of a port -/

/-- The link unit of a multidrop port. -/
def State.line (s : State) : LinePort → LineLink
  | .a => s.la
  | .b => s.lb

/-- The state with the link unit of a multidrop port changed. -/
def State.modifyLine (s : State) (l : LinePort) (f : LineLink → LineLink) : State :=
  match l with
  | .a => { s with la := f s.la }
  | .b => { s with lb := f s.lb }

/-- The state with the link unit of port C changed. -/
def State.modifyTarget (s : State) (f : TargetLink → TargetLink) : State := { s with lc := f s.lc }

/-- The transfer image a port holds (R194). -/
def State.imageOf (s : State) : Port → Option Image
  | .a => s.la.image
  | .b => s.lb.image
  | .c => s.lc.image

/-- The state with a port's transfer image replaced. -/
def State.setImage (s : State) (p : Port) (img : Option Image) : State :=
  match p with
  | .a => { s with la := { s.la with image := img } }
  | .b => { s with lb := { s.lb with image := img } }
  | .c => { s with lc := { s.lc with image := img } }

/-- The reply that carries chunk `k` of an image: its number and its bytes, with MORE while chunks remain (R194). -/
def chunkReply (bytes : List Byte) (k : Nat) : Reply :=
  { status := if 47 * (k + 1) < bytes.length then .more else .ok
    payload := byte1 k ++ (bytes.drop (47 * k)).take 47 }

/-- A transfer image taken on a port, with chunk 0 as the reply (R194). -/
def takeImage (p : Port) (bytes : List Byte) (s : State) : State × Reply :=
  (s.setImage p (some ⟨bytes, 0⟩), chunkReply bytes 0)

end Sys2Proof.Machine
end

