-- ==== Sys2Proof/Machine/BaleCommands.lean ====
section
/-! DEFINITION. The commands on the bale table: OPEN BALE, DUMP PRECHAMBER, DISCARD BALE, READ BALE (chapter 1). -/

namespace Sys2Proof.Machine

/-- A new record appended at the tail, the counter stepped, and the creation as a stage change (R11, R14, R15, R17). -/
def createRecord (slot : Nat) (r : Recipe) (st : Stage) (s : State) : State :=
  let q := s.bt.seqCounter
  let bales := s.bt.bales ++ [newRecord q slot r st s.bt.runClock]
  let opened : State :=
    { s with bt := { s.bt with bales := bales, seqCounter := stepSeq (bales.length + 1) (bales.map Bale.seq) q } }
  stageNeighbours st q (setStageLatches st.zone q opened)

/-- The stage OPEN BALE gives: FORMING if the chamber is empty and the tailgate closed, else GATHERING (R17). -/
def State.openingStage (s : State) : Stage :=
  if s.recordIn .chamber = none ∧ s.mi.tailgate.filtered = true then .forming else .gathering

/-- OPEN BALE (R16, R17). -/
def cmdOpenBale (_p : Port) (pl : List Byte) (s : State) : State × Reply :=
  let slot := nat1 pl 0
  if 7 < slot then (s, refuse .badValue)
  else if s.mi.stop.filtered then (s, refuse .stopped)
  else
    match s.rs.slots[slot]? with
    | none => (s, refuse .invalidRecipe)
    | some x =>
      if x.valid = false then (s, refuse .invalidRecipe)
      else if (s.recordIn .pre).isSome then (s, refuse .occupied)
      else
        (createRecord slot x.recipe s.openingStage s,
          answer (byte2 s.bt.seqCounter ++ byte1 s.openingStage.code))

/-- DUMP PRECHAMBER (R18). -/
def cmdDumpPrechamber (_p : Port) (_pl : List Byte) (s : State) : State × Reply :=
  match s.recordIn .pre with
  | none => (s, refuse .noSuchBale)
  | some b =>
    if (s.recordIn .chamber).isSome then (s, refuse .occupied)
    else if s.mi.tailgate.filtered = false then (s, refuse .notReady)
    else if s.mi.stop.filtered then (s, refuse .stopped)
    else (enterStage .pre .forming s, answer (byte2 b.seq))

/-- The stages a port can discard from (R19). -/
def discardReach (p : Port) (st : Stage) : Bool :=
  match p with
  | .a => decide (st.code ≤ 4)
  | .b => decide (4 ≤ st.code)
  | .c => false

/-- The close reason of a discard (R19). -/
def discardReason (st : Stage) : CloseReason := if st = .ejecting then .lostInTransfer else .discarded

/-- DISCARD BALE (R19). -/
def cmdDiscardBale (p : Port) (pl : List Byte) (s : State) : State × Reply :=
  match s.recordOf (nat2 pl 0) with
  | none => (s, refuse .noSuchBale)
  | some b =>
    if discardReach p b.stage = false then (s, refuse .notPermitted)
    else
      (closeRecord b.stage.zone (discardReason b.stage) s,
        answer (byte2 b.seq ++ byte1 (closeReasonCode (some (discardReason b.stage)))))

/-- The image of the record READ BALE selects, or the refusal (R21). -/
def readBaleImage (p : Port) (found : Option Bale) (s : State) : State × Reply :=
  match found with
  | some b => takeImage p (baleImage b) s
  | none => (s, refuse .noSuchBale)

/-- READ BALE (R21). -/
def cmdReadBale (p : Port) (pl : List Byte) (s : State) : State × Reply :=
  if nat1 pl 0 = 0 then readBaleImage p (s.recordOf (nat2 pl 1)) s
  else if nat1 pl 0 = 1 then
    match zoneOfNumber (nat2 pl 1) with
    | some z => readBaleImage p (s.recordIn z) s
    | none => (s, refuse .badValue)
  else (s, refuse .badValue)

end Sys2Proof.Machine
end

