-- ==== Sys2Proof/Machine/DispenserCommands.lean ====
section
/-! DEFINITION. RESTORE DISPENSER, WITHDRAW DISPENSER, NEW ROLL, READ STOCK (chapter 7). -/

namespace Sys2Proof.Machine

/-- RESTORE DISPENSER (R139). -/
def cmdRestoreDispenser (_p : Port) (pl : List Byte) (s : State) : State × Reply :=
  match dispenserOfNumber (nat1 pl 0) with
  | none => (s, refuse .badValue)
  | some k =>
    let d := s.ds.film.get k
    if d.state = .running ∨ d.state = .empty then (s, refuse .notReady)
    else if d.known = true ∧ d.stock = 0 then (s, refuse .empty)
    else
      (s.modifyDispenser k (fun x => { x with state := .running, silence := 0 }),
        answer (byte1 (dispenserNumber k) ++ byte1 DispenserState.running.code ++ flag1 d.known ++ byte4 d.stock))

/-- WITHDRAW DISPENSER (R140). The response carries the state before the command, as R140 and Table 10-3 say; R153 says
of it the state the command leaves (log entry 27). -/
def cmdWithdrawDispenser (_p : Port) (pl : List Byte) (s : State) : State × Reply :=
  match dispenserOfNumber (nat1 pl 0) with
  | none => (s, refuse .badValue)
  | some k =>
    (s.modifyDispenser k (fun x => { x with state := .out }),
      answer (byte1 (dispenserNumber k) ++ byte1 (s.ds.film.get k).state.code))

/-- A dispenser's record after NEW ROLL for its film roll (R147). -/
def DispenserRecord.newRoll (d : DispenserRecord) (mm : Nat) : DispenserRecord :=
  { d with stock := mm, known := true, residue := 0, state := if d.state = .empty then .out else d.state }

/-- The top of a roll's range: 40,000,000 for net, 3,000,000 for film (Table 7-1, R146). -/
def rollTop (roll : Nat) : Nat := if roll = 0 then 40000000 else 3000000

/-- NEW ROLL (R146, R147). -/
def cmdNewRoll (_p : Port) (pl : List Byte) (s : State) : State × Reply :=
  let roll := nat1 pl 0
  let len := nat4 pl 1
  if 2 < roll then (s, refuse .badValue)
  else if len = 0 then (s, refuse .badValue)
  else
    let stored := min len (rollTop roll)
    match dispenserOfNumber roll with
    | none =>
      ({ s with ds := { s.ds with netStock := stored, netKnown := true } },
        answer (byte1 roll ++ byte4 stored ++ flag1 (decide (stored ≠ len)) ++ byte1 0))
    | some k =>
      (s.modifyDispenser k (·.newRoll stored),
        answer (byte1 roll ++ byte4 stored ++ flag1 (decide (stored ≠ len)) ++
          byte1 ((s.ds.film.get k).newRoll stored).state.code))

/-- One dispenser's items of READ STOCK (R151). -/
def DispenserRecord.items (d : DispenserRecord) : List Byte :=
  byte1 d.state.code ++ flag1 d.known ++ byte4 d.stock ++ byte2 d.silence ++ byte1 d.residue

/-- READ STOCK (R151). -/
def cmdReadStock (_p : Port) (_pl : List Byte) (s : State) : State × Reply :=
  (s, answer (flag1 s.ds.netKnown ++ byte4 s.ds.netStock ++ s.ds.film.one.items ++ s.ds.film.two.items ++
    flag1 (decide (s.lowStocks ≠ 0)) ++ byte1 s.lowStocks))

end Sys2Proof.Machine
end

