-- ==== Sys2Proof/Machine/HandoverCommands.lean ====
section
/-! DEFINITION. REQUEST EJECT, CANCEL EJECT, HOLD TABLE, FREE TABLE (chapter 5). -/

namespace Sys2Proof.Machine

/-- A request placed in the slot, with the record's `eject_requested` set (R88, R91). -/
def placeRequest (q : Nat) (s : State) : State :=
  { s.modifyRecord .chamber (fun b => { b with ejectRequested := true }) with
    hu := { s.hu with ejectSlot := some q } }

/-- A request withdrawn: the slot emptied if it names the record, `eject_requested` cleared (R94). -/
def withdrawRequest (q : Nat) (s : State) : State :=
  { s.modifyRecord .chamber (fun b => { b with ejectRequested := false }) with
    hu := { s.hu with ejectSlot := if s.hu.ejectSlot = some q then none else s.hu.ejectSlot } }

/-- REQUEST EJECT (R90, R91). -/
def cmdRequestEject (_p : Port) (pl : List Byte) (s : State) : State × Reply :=
  match s.recordOf (nat2 pl 0) with
  | none => (s, refuse .noSuchBale)
  | some b =>
    if b.stage ≠ .netted then (s, refuse .notReady)
    else if s.obstacles = 0 then (grantEject false s, answer (byte2 b.seq ++ byte1 0))
    else (placeRequest b.seq s, ⟨.queued, byte2 b.seq ++ byte1 s.obstacles⟩)

/-- CANCEL EJECT (R94). -/
def cmdCancelEject (_p : Port) (pl : List Byte) (s : State) : State × Reply :=
  match s.recordOf (nat2 pl 0) with
  | none => (s, refuse .noSuchBale)
  | some b =>
    if b.stage ≠ .netted then (s, refuse .notReady)
    else
      (withdrawRequest b.seq s, answer (byte2 b.seq ++ flag1 (decide (s.hu.ejectSlot = some b.seq))))

/-- What HOLD TABLE and FREE TABLE return, as it stands after the command (R95). -/
def tableAnswer (s : State) : Reply :=
  answer (flag1 s.hu.tableHold ++ byte2 (orZero s.hu.reservation) ++ byte2 (orZero s.hu.ejectSlot))

/-- HOLD TABLE (R95). -/
def cmdHoldTable (_p : Port) (_pl : List Byte) (s : State) : State × Reply :=
  let held : State := { s with hu := { s.hu with tableHold := true } }
  (held, tableAnswer held)

/-- FREE TABLE: the hold cleared, then the waiting request evaluated (R93, R95). -/
def cmdFreeTable (_p : Port) (_pl : List Byte) (s : State) : State × Reply :=
  let freed := evalGrant { s with hu := { s.hu with tableHold := false } }
  (freed, tableAnswer freed)

end Sys2Proof.Machine
end

