-- ==== Sys2Proof/Machine/ChannelCommands.lean ====
section
/-! DEFINITION. The commands on measurement channels: READ CHANNEL, HOLD ZERO, RELEASE ZERO, PREZERO (chapter 2). -/

namespace Sys2Proof.Machine

/-- A port added to a hold set (R38). -/
def ChannelRecord.holdBy (p : Port) (c : ChannelRecord) : ChannelRecord := { c with hold := c.hold.put p true }

/-- A port removed from a hold set. A removal that empties the set is a moment of evaluation (R35, R38); a port that
was not in the set removes nothing (log entry 24). -/
def ChannelRecord.releaseBy (p : Port) (c : ChannelRecord) : ChannelRecord :=
  if c.hold.has p then { c with hold := c.hold.put p false }.evalZero else c

/-- What HOLD ZERO and RELEASE ZERO return (R38). -/
def zeroAnswer (c : ChannelRecord) : Reply := answer (signed1 c.debt ++ byte1 c.hold.marks ++ flag1 c.zeroing)

/-- READ CHANNEL (R41). -/
def cmdReadChannel (_p : Port) (pl : List Byte) (s : State) : State × Reply :=
  match channelOfNumber (nat1 pl 0) with
  | none => (s, refuse .badValue)
  | some ch =>
    let c := s.mf.get ch
    (s, answer (byte2 c.value ++ signed2 c.raw ++ byte1 c.marks ++ signed1 c.debt ++ byte1 c.hold.marks ++
      byte1 (s.rs.chan.get ch).period))

/-- HOLD ZERO (R38). -/
def cmdHoldZero (p : Port) (pl : List Byte) (s : State) : State × Reply :=
  match channelOfNumber (nat1 pl 0) with
  | none => (s, refuse .badValue)
  | some ch => (s.modifyChannel ch (·.holdBy p), zeroAnswer ((s.mf.get ch).holdBy p))

/-- RELEASE ZERO (R38). -/
def cmdReleaseZero (p : Port) (pl : List Byte) (s : State) : State × Reply :=
  match channelOfNumber (nat1 pl 0) with
  | none => (s, refuse .badValue)
  | some ch => (s.modifyChannel ch (·.releaseBy p), zeroAnswer ((s.mf.get ch).releaseBy p))

/-- PREZERO (R39). -/
def cmdPrezero (_p : Port) (pl : List Byte) (s : State) : State × Reply :=
  match channelOfNumber (nat1 pl 0) with
  | none => (s, refuse .badValue)
  | some ch =>
    if (s.mf.get ch).zeroing then (s, refuse .busy)
    else if (s.mf.get ch).debt ≤ -8 then (s, refuse .notReady)
    else (s.modifyChannel ch ChannelRecord.beginZero, answer (signed1 (s.mf.get ch).debt))

end Sys2Proof.Machine
end

