-- ==== Sys2Proof/Machine/LinkCommands.lean ====
section
/-! DEFINITION. The link units: the counters (R197), the transfer image (R195), and IDENTIFY, READ STATUS, READ NEXT,
READ LINK STATS, PORT RESET (chapter 10). -/

namespace Sys2Proof.Machine

/-! ### Counters (R197) -/

/-- A counter of Table 10-6 stepped: 0 to 255, saturating. -/
def stepCounter (n : Nat) : Nat := stepSaturating n 255

/-- An error counter's value on port A or B. -/
def LineLink.counter (x : LineLink) : LineError → Nat
  | .abandoned => x.abandoned
  | .framing => x.framing
  | .check => x.check
  | .pendingLost => x.pendingLost

/-- An error counted on port A or B: the counter steps and the error latch is set. -/
def LineLink.count (x : LineLink) (e : LineError) : LineLink :=
  match e with
  | .abandoned => { x with abandoned := stepCounter x.abandoned, errorLatch := true }
  | .framing => { x with framing := stepCounter x.framing, errorLatch := true }
  | .check => { x with check := stepCounter x.check, errorLatch := true }
  | .pendingLost => { x with pendingLost := stepCounter x.pendingLost, errorLatch := true }

/-- The LINK instance of an error of port A or B (Table 10-6). -/
def lineErrorInst : LineError → Fin 4
  | .pendingLost => 1
  | _ => 0

/-- An error counted on port A or B, with the LINK setting to its own arbiter, the counter's value after the step as
detail (R180, R197). -/
def countLineError (l : LinePort) (e : LineError) (s : State) : State :=
  setLatch (linePort l) .link (lineErrorInst e) (((s.line l).count e).counter e) (s.modifyLine l (·.count e))

/-- An error counter's value on port C. -/
def TargetLink.counter (x : TargetLink) : TargetError → Nat
  | .length => x.length
  | .check => x.check
  | .responseLost => x.responseLost

/-- An error counted on port C: the counter steps and the error latch is set. -/
def TargetLink.count (x : TargetLink) (e : TargetError) : TargetLink :=
  match e with
  | .length => { x with length := stepCounter x.length, errorLatch := true }
  | .check => { x with check := stepCounter x.check, errorLatch := true }
  | .responseLost => { x with responseLost := stepCounter x.responseLost, errorLatch := true }

/-- The LINK instance of an error of port C (Table 10-6). -/
def targetErrorInst : TargetError → Fin 4
  | .responseLost => 2
  | _ => 0

/-- An error counted on port C, with its LINK setting (R180, R197). -/
def countTargetError (e : TargetError) (s : State) : State :=
  setLatch .c .link (targetErrorInst e) ((s.lc.count e).counter e) (s.modifyTarget (·.count e))

/-- The FRAMES counter of a port stepped (R192). -/
def stepFrames (p : Port) (s : State) : State :=
  match p with
  | .a => { s with la := { s.la with frames := stepCounter s.la.frames } }
  | .b => { s with lb := { s.lb with frames := stepCounter s.lb.frames } }
  | .c => { s with lc := { s.lc with frames := stepCounter s.lc.frames } }

/-- A port's error latch (R197). -/
def State.errorLatchOf (s : State) : Port → Bool
  | .a => s.la.errorLatch
  | .b => s.lb.errorLatch
  | .c => s.lc.errorLatch

/-- A port's error latch cleared (R198). -/
def clearErrorLatch (p : Port) (s : State) : State :=
  match p with
  | .a => { s with la := { s.la with errorLatch := false } }
  | .b => { s with lb := { s.lb with errorLatch := false } }
  | .c => { s with lc := { s.lc with errorLatch := false } }

/-! ### Commands -/

/-- IDENTIFY (R199). -/
def cmdIdentify (p : Port) (_pl : List Byte) (s : State) : State × Reply :=
  (s, answer (byte2 340 ++ byte1 1 ++ byte1 (portNumber p) ++ byte1 (addressOf s.straps p) ++
    byte1 (strapValue s.straps p)))

/-- The level marks: STOP 0, TAILGATE 1, TABLE_LOADED 2 (Table 10-5). -/
def State.levelMarks (s : State) : Nat :=
  marks [s.mi.stop.filtered, s.mi.tailgate.filtered, s.mi.tableLoaded.filtered]

/-- READ STATUS: the 26 bytes of Table 10-5 (R200). -/
def cmdReadStatus (p : Port) (_pl : List Byte) (s : State) : State × Reply :=
  (s, answer (byte4 s.bt.runClock ++ byte1 s.levelMarks ++ byte2 s.mi.angle ++ byte2 s.cu.dvCode ++
    flag1 s.cu.lockout ++ byte1 s.cu.netCatchTimer.code ++
    byte2 (orZero s.hu.reservation) ++ byte2 (orZero s.hu.ejectSlot) ++
    flag1 s.hu.tableHold ++ byte1 s.hu.transferTimer.code ++
    byte2 (s.seqIn .pre) ++ byte2 (s.seqIn .chamber) ++ byte2 (s.seqIn .table) ++
    byte1 s.rq.queue.length ++ byte1 (marks [s.rq.holding.isSome, s.rq.overrun]) ++
    byte1 (marks [s.errorLatchOf p, s.raised p])))

/-- READ NEXT (R195). -/
def cmdReadNext (p : Port) (pl : List Byte) (s : State) : State × Reply :=
  let k := nat1 pl 0
  match s.imageOf p with
  | none => (s, refuse .noTransfer)
  | some img =>
    if (k = img.lastChunk + 1 ∨ k = img.lastChunk) ∧ 47 * k < img.bytes.length then
      (s.setImage p (some { img with lastChunk := k }), chunkReply img.bytes k)
    else (s, refuse .badValue)

/-- The code of a receiver's state: 0 DOZING, 1 LISTENING (R198). -/
def Receiver.code : Receiver → Nat
  | .dozing => 0
  | .listening _ _ => 1

/-- What READ LINK STATS returns on port A or B (R198). -/
def LineLink.stats (x : LineLink) : List Byte :=
  byte1 x.frames ++ byte1 x.abandoned ++ byte1 x.framing ++ byte1 x.check ++ byte1 x.pendingLost ++
  flag1 x.errorLatch ++ byte1 x.rx.code ++ flag1 x.held.isSome

/-- What READ LINK STATS returns on port C (R198). -/
def TargetLink.stats (x : TargetLink) : List Byte :=
  byte1 x.frames ++ byte1 x.length ++ byte1 x.check ++ byte1 x.responseLost ++ byte1 0 ++ flag1 x.errorLatch ++
  byte1 0 ++ byte1 0

/-- A port's link statistics (R198). -/
def State.statsOf (s : State) : Port → List Byte
  | .a => s.la.stats
  | .b => s.lb.stats
  | .c => s.lc.stats

/-- READ LINK STATS (R198). -/
def cmdReadLinkStats (p : Port) (pl : List Byte) (s : State) : State × Reply :=
  if 1 < nat1 pl 0 then (s, refuse .badValue)
  else (if nat1 pl 0 = 1 then clearErrorLatch p s else s, answer (s.statsOf p))

/-- A port's link unit reset (R201). The transmitter is left to the response; `acks` and `sda` are the model's own. -/
def resetLink (p : Port) (s : State) : State :=
  match p with
  | .a => { s with la := { idleLine with tx := s.la.tx } }
  | .b => { s with lb := { idleLine with tx := s.lb.tx } }
  | .c => { s with lc := { idleTarget with acks := s.lc.acks, sda := s.lc.sda } }

/-- A port's latch places and current notice cleared (R181). -/
def resetNotices (p : Port) (s : State) : State :=
  s.modifyArbiter p (fun a => { a with latches := clearLatches, current := none })

/-- A port removed from every hold set (R42). -/
def releaseHolds (p : Port) (s : State) : State :=
  { s with mf := ⟨s.mf.p.releaseBy p, s.mf.d.releaseBy p, s.mf.m.releaseBy p⟩ }

/-- PORT RESET (R201). -/
def cmdPortReset (p : Port) (_pl : List Byte) (s : State) : State × Reply :=
  (releaseHolds p (resetNotices p (resetLink p s)), answer [])

end Sys2Proof.Machine
end

