-- ==== Sys2Proof/Machine/NetCommands.lean ====
section
/-! DEFINITION. NET START and NET ABORT (chapter 4). -/

namespace Sys2Proof.Machine

/-- `net_diameter` as NET START takes it from the held D value: clamped to 900 to 1800 mm (R77). -/
def State.startDiameter (s : State) : Nat := clampNat s.mf.d.value 900 1800

/-- The four net fields NET START stores (R77 steps 1 to 4, R78). -/
def startNet (r : Recipe) (diameter : Nat) : NetFields :=
  { diameter := diameter, circ := circumference diameter, target := netTarget r (circumference diameter),
    metered := 0 }

/-- The chamber record after steps 1 to 5 of R77. -/
def Bale.withNetStart (b : Bale) (diameter : Nat) (stale : Bool) : Bale :=
  { b with
    net := some (startNet b.recipe diameter)
    netAttempts := stepSaturating b.netAttempts 7
    flags := { b.flags with staleSensor := b.flags.staleSensor || stale } }

/-- NET START (R76, R77). -/
def cmdNetStart (_p : Port) (_pl : List Byte) (s : State) : State × Reply :=
  match s.recordIn .chamber with
  | none => (s, refuse .notReady)
  | some b =>
    if b.stage ≠ .forming then (s, refuse .notReady)
    else if s.mi.stop.filtered then (s, refuse .stopped)
    else
      let d := s.startDiameter
      let b' := b.withNetStart d s.mf.d.stale
      let started := s.modifyRecord .chamber (fun x => x.withNetStart d s.mf.d.stale)
      let timed : State :=
        { started with
          cu := { started.cu with netCatchTimer := .running (s.rs.constants.netCatchTimeout * 100) } }
      (enterStage .chamber .netting timed,
        answer (byte2 b.seq ++ byte2 d ++ byte4 (startNet b.recipe d).target ++ byte1 b'.netAttempts ++
          flag1 s.mf.d.stale))

/-- NET ABORT (R83). -/
def cmdNetAbort (_p : Port) (_pl : List Byte) (s : State) : State × Reply :=
  match s.recordIn .chamber with
  | none => (s, refuse .notReady)
  | some b =>
    if b.stage ≠ .netting then (s, refuse .notReady)
    else (returnToForming s, answer (byte2 b.seq ++ byte4 b.netOrZero.metered))

end Sys2Proof.Machine
end

