-- ==== Sys2Proof/Machine/NoticeCommands.lean ====
section
/-! DEFINITION. TAKE NOTICE, ACK NOTICE, ACK CURRENT, SET NOTICE PLAN (chapter 9). -/

namespace Sys2Proof.Machine

/-- The four captured values of a current notice, all 0 for NONE (R172). -/
def noticeBytes : Option Notice → List Byte
  | some n => byte1 n.source.code ++ byte1 n.inst.val ++ byte1 n.priority ++ byte2 n.detail
  | none => byte1 0 ++ byte1 0 ++ byte1 0 ++ byte2 0

/-- TAKE NOTICE (R172). -/
def cmdTakeNotice (p : Port) (_pl : List Byte) (s : State) : State × Reply :=
  (s.modifyArbiter p (fun a => { a with current := s.offered p }),
    answer (noticeBytes (s.offered p) ++ flag1 (s.raised p)))

/-- Whether a latch place is set on a port. A condition has no place (R168). -/
def State.placeSet (s : State) (p : Port) (src : Source) (i : Fin 4) : Bool :=
  src.isLatch && (((s.na.get p).latches.get src).get i).isSome

/-- An acknowledgement of a source and instance on a port: a set place is cleared (R174, R175). -/
def acknowledge (p : Port) (src : Source) (i : Fin 4) (s : State) : State × Reply :=
  let cleared := if s.placeSet p src i then s.writeLatch p src i none else s
  (cleared, answer (flag1 (s.placeSet p src i) ++ flag1 (cleared.raised p)))

/-- ACK NOTICE (R174). -/
def cmdAckNotice (p : Port) (pl : List Byte) (s : State) : State × Reply :=
  match sourceOfCode (nat1 pl 0), instOfNumber (nat1 pl 1) with
  | some src, some i => acknowledge p src i s
  | _, _ => (s, refuse .badValue)

/-- ACK CURRENT (R175). -/
def cmdAckCurrent (p : Port) (_pl : List Byte) (s : State) : State × Reply :=
  match (s.na.get p).current with
  | some n => acknowledge p n.source n.inst s
  | none => (s, refuse .notReady)

/-- A written trigger level: the smallest of 1, 4, 8, 12 and 16 not below it, 16 for more (R177). -/
def legalTrigger (n : Nat) : Nat :=
  if n ≤ 1 then 1 else if n ≤ 4 then 4 else if n ≤ 8 then 8 else if n ≤ 12 then 12 else 16

/-- The plan after a SET NOTICE PLAN: alter marks 0 mask, 1 to 15 priorities, 16 base, 17 trigger, 18 threshold
(R177, section 10.4). -/
def alterPlan (old : NoticePlan) (pl : List Byte) : NoticePlan :=
  let alter := nat1 pl 0 * 65536 + nat2 pl 1
  { mask := if hasMark alter 0 then PerSource.make (fun src => hasMark (nat2 pl 3) src.code) else old.mask
    priorities := PerSource.make (fun src =>
      if src = .reports then old.priorities.get src
      else if hasMark alter src.code then nat1 pl (4 + src.code) else old.priorities.get src)
    reportsBase := if hasMark alter 16 then nat1 pl 20 else old.reportsBase
    trigger := if hasMark alter 17 then legalTrigger (nat1 pl 21) else old.trigger
    threshold := if hasMark alter 18 then nat1 pl 22 else old.threshold }

/-- The mask as a number, mark k for source code k (R177). -/
def maskNumber (m : PerSource Bool) : Nat := marks (false :: allSources.map m.get)

/-- The fifteen priority bytes; `open_` stands for the byte of REPORTS, which the spec does not give (log entry 8). -/
def priorityBytes (x : PerSource Nat) (open_ : Byte) : List Byte :=
  allSources.map (fun src => if src = .reports then open_ else BitVec.ofNat 8 (x.get src))

/-- The plan as SET NOTICE PLAN returns it (Table 10-3). -/
def planBytes (x : NoticePlan) (open_ : Byte) : List Byte :=
  byte2 (maskNumber x.mask) ++ priorityBytes x.priorities open_ ++ byte1 x.reportsBase ++ byte1 x.trigger ++
  byte1 x.threshold

/-- Whether the trigger level was replaced by the rule of R177. -/
def triggerReplaced (pl : List Byte) : Bool :=
  hasMark (nat1 pl 0 * 65536 + nat2 pl 1) 17 && decide (legalTrigger (nat1 pl 21) ≠ nat1 pl 21)

/-- SET NOTICE PLAN (R177, R178). -/
def cmdSetNoticePlan (p : Port) (pl : List Byte) (s : State) : State × Reply :=
  let plan := alterPlan (s.na.get p).plan pl
  let planned : State := { s.modifyArbiter p (fun a => { a with plan := plan }) with freeCount := s.freeCount + 1 }
  (planned,
    answer (planBytes plan (Config.freeByte s.freeCount) ++ flag1 (triggerReplaced pl) ++ flag1 (planned.raised p)))

end Sys2Proof.Machine
end

