-- ==== Sys2Proof/Machine/RecipeCommands.lean ====
section
/-! DEFINITION. LOAD RECIPE, READ RECIPE, SET MACHINE, READ MACHINE (chapter 3). -/

namespace Sys2Proof.Machine

/-! ### Recipes -/

/-- A field as LOAD RECIPE or SET MACHINE leaves it: the written value clamped, if altered (R55, R60). -/
def alterNat (alter : Bool) (written old lo hi : Nat) : Nat := if alter then clampNat written lo hi else old

/-- Whether an altered field is marked in the clamp mask: what is stored differs from what was written (R56, R60). -/
def clampMark (alter : Bool) (written lo hi : Nat) : Bool := alter && decide (clampNat written lo hi ≠ written)

/-- The fields after step 2 of R55: the ranges of Table 3-1, alter marks 1 to 15. -/
def alterRecipe (start w : Recipe) (alter : Nat) : Recipe :=
  { targetDiameter := alterNat (hasMark alter 1) w.targetDiameter start.targetDiameter 900 1800
    dc := alterNat (hasMark alter 2) w.dc start.dc 0 1800
    pc := alterNat (hasMark alter 3) w.pc start.pc 0 25000
    ps := alterNat (hasMark alter 4) w.ps start.ps 0 25000
    r := alterNat (hasMark alter 5) w.r start.r 1 900
    nt := alterNat (hasMark alter 6) w.nt start.nt 15 60
    tail := alterNat (hasMark alter 7) w.tail start.tail 0 2000
    m1 := alterNat (hasMark alter 8) w.m1 start.m1 0 800
    m2 := alterNat (hasMark alter 9) w.m2 start.m2 0 800
    l1 := alterNat (hasMark alter 10) w.l1 start.l1 0 12
    l2 := alterNat (hasMark alter 11) w.l2 start.l2 0 12
    l3 := alterNat (hasMark alter 12) w.l3 start.l3 0 12
    neck := alterNat (hasMark alter 13) w.neck start.neck 0 400
    s := alterNat (hasMark alter 14) w.s start.s 50 90
    maxRevs := alterNat (hasMark alter 15) w.maxRevs start.maxRevs 4 60 }

/-- Step 3 of R55: an M1 above M2 is set equal to M2. -/
def bandStep (r : Recipe) : Recipe := if r.m2 < r.m1 then { r with m1 := r.m2 } else r

/-- The clamp mask (R56), numbered as the alter marks are, so mark 0 is never set (log entry 12). -/
def recipeClampMask (altered w : Recipe) (alter : Nat) : Nat :=
  marks [false, clampMark (hasMark alter 1) w.targetDiameter 900 1800, clampMark (hasMark alter 2) w.dc 0 1800,
    clampMark (hasMark alter 3) w.pc 0 25000, clampMark (hasMark alter 4) w.ps 0 25000,
    clampMark (hasMark alter 5) w.r 1 900, clampMark (hasMark alter 6) w.nt 15 60,
    clampMark (hasMark alter 7) w.tail 0 2000,
    clampMark (hasMark alter 8) w.m1 0 800 || decide (altered.m2 < altered.m1),
    clampMark (hasMark alter 9) w.m2 0 800, clampMark (hasMark alter 10) w.l1 0 12,
    clampMark (hasMark alter 11) w.l2 0 12, clampMark (hasMark alter 12) w.l3 0 12,
    clampMark (hasMark alter 13) w.neck 0 400, clampMark (hasMark alter 14) w.s 50 90,
    clampMark (hasMark alter 15) w.maxRevs 4 60]

/-- The slot's new contents (R55). -/
def loadSlot (old : RecipeSlot) (w : Recipe) (alter : Nat) (validWritten : Nat) : RecipeSlot :=
  { valid := if hasMark alter 0 then decide (validWritten ≠ 0) else old.valid
    recipe := bandStep (alterRecipe (if old.valid then old.recipe else defaultRecipe) w alter) }

/-- LOAD RECIPE (R54 to R56). -/
def cmdLoadRecipe (_p : Port) (pl : List Byte) (s : State) : State × Reply :=
  let slot := nat1 pl 0
  if 7 < slot then (s, refuse .badValue)
  else
    let old := s.rs.slots.getD slot ⟨false, defaultRecipe⟩
    let w := readRecipeBlock pl 4
    let alter := nat2 pl 1
    let altered := alterRecipe (if old.valid then old.recipe else defaultRecipe) w alter
    let stored := loadSlot old w alter (nat1 pl 3)
    ({ s with rs := { s.rs with slots := s.rs.slots.set slot stored } },
      answer (byte1 slot ++ flag1 stored.valid ++ byte2 (recipeClampMask altered w alter)))

/-- READ RECIPE (R57). -/
def cmdReadRecipe (p : Port) (pl : List Byte) (s : State) : State × Reply :=
  let slot := nat1 pl 0
  if 7 < slot then (s, refuse .badValue)
  else takeImage p (recipeImage slot (s.rs.slots.getD slot ⟨false, defaultRecipe⟩)) s

/-! ### Machine constants -/

/-- A written period: the smallest of 10, 20, 50, 100 and 200 not below it, 200 for more (R60). -/
def legalPeriod (n : Nat) : Nat :=
  if n ≤ 10 then 10 else if n ≤ 20 then 20 else if n ≤ 50 then 50 else if n ≤ 100 then 100 else 200

/-- A written calibration pair, clamped (R60). -/
def clampPair (top : Nat) (k : Calibration) : Calibration :=
  { raw0 := clampInt k.raw0 (-32767) 32767, eng0 := clampNat k.eng0 0 top,
    raw1 := clampInt k.raw1 (-32767) 32767, eng1 := clampNat k.eng1 0 top }

/-- The channel of a group 0 to 2 (section 3.3). -/
def groupChannel (group : Nat) : Option Channel := channelOfNumber group

/-- A channel's constants after a SET MACHINE: period and pair, if altered (R60). -/
def alterChannel (top : Nat) (old : ChannelConstants) (alter period : Nat) (pair : Calibration) : ChannelConstants :=
  { period := if hasMark alter 0 then legalPeriod period else old.period
    pair := if hasMark alter 1 then clampPair top pair else old.pair }

/-- The group-3 constants as altered and clamped, before the last step of R60; alter marks 0 to 12 (Table 3-2). -/
def alterConstants (old w : Constants) (alter : Nat) : Constants :=
  { baleWidth := alterNat (hasMark alter 0) w.baleWidth old.baleWidth 1000 1600
    filmWidth := alterNat (hasMark alter 1) w.filmWidth old.filmWidth 250 1000
    rollStep := alterNat (hasMark alter 2) w.rollStep old.rollStep 1 500
    netStep := alterNat (hasMark alter 3) w.netStep old.netStep 1 500
    tablePulses := alterNat (hasMark alter 4) w.tablePulses old.tablePulses 64 1024
    transferTimeout := alterNat (hasMark alter 5) w.transferTimeout old.transferTimeout 1 30
    netCatchTimeout := alterNat (hasMark alter 6) w.netCatchTimeout old.netCatchTimeout 5 100
    opLimit := alterNat (hasMark alter 7) w.opLimit old.opLimit 1000 25000
    opHyst := alterNat (hasMark alter 8) w.opHyst old.opHyst 0 5000
    dvOffset := if hasMark alter 9 then clampInt w.dvOffset (-32768) 32767 else old.dvOffset
    dvGain := alterNat (hasMark alter 10) w.dvGain old.dvGain 0 65535
    netLow := alterNat (hasMark alter 11) w.netLow old.netLow 0 40000000
    filmLow := alterNat (hasMark alter 12) w.filmLow old.filmLow 0 3000000 }

/-- The last step of R60: an `op_hyst` not below `op_limit` is set to `op_limit` − 1. -/
def hystStep (k : Constants) : Constants := if k.opLimit ≤ k.opHyst then { k with opHyst := k.opLimit - 1 } else k

/-- The clamp mask of group 3 (R60). -/
def constantsClampMask (altered w : Constants) (alter : Nat) : Nat :=
  marks [clampMark (hasMark alter 0) w.baleWidth 1000 1600, clampMark (hasMark alter 1) w.filmWidth 250 1000,
    clampMark (hasMark alter 2) w.rollStep 1 500, clampMark (hasMark alter 3) w.netStep 1 500,
    clampMark (hasMark alter 4) w.tablePulses 64 1024, clampMark (hasMark alter 5) w.transferTimeout 1 30,
    clampMark (hasMark alter 6) w.netCatchTimeout 5 100, clampMark (hasMark alter 7) w.opLimit 1000 25000,
    clampMark (hasMark alter 8) w.opHyst 0 5000 || decide (altered.opLimit ≤ altered.opHyst),
    hasMark alter 9 && decide (clampInt w.dvOffset (-32768) 32767 ≠ w.dvOffset),
    clampMark (hasMark alter 10) w.dvGain 0 65535, clampMark (hasMark alter 11) w.netLow 0 40000000,
    clampMark (hasMark alter 12) w.filmLow 0 3000000]

/-- New group-3 constants put in force; a changed `table_pulses` clears the angle and silence counters (R48, R61,
R134). -/
def applyConstants (k : Constants) (s : State) : State :=
  let stored : State := { s with rs := { s.rs with constants := k } }
  if k.tablePulses = s.rs.constants.tablePulses then stored
  else clearSilence { stored with mi := { stored.mi with angle := 0 } }

/-- SET MACHINE on a channel's group (R59 step 5, R60). -/
def setChannelGroup (ch : Channel) (group : Nat) (pl : List Byte) (s : State) : State × Reply :=
  let alter := nat1 pl 1
  let period := nat1 pl 2
  let written := readPairBlock pl 3
  let pair := clampPair (channelTop ch) written
  if hasMark alter 1 = true ∧ pair.raw0 = pair.raw1 then (s, refuse .badValue)
  else
    ({ s with rs := { s.rs with
        chan := s.rs.chan.set ch (alterChannel (channelTop ch) (s.rs.chan.get ch) alter period written) } },
      answer (byte1 group ++ byte2 (marks
        [hasMark alter 0 && decide (legalPeriod period ≠ period), hasMark alter 1 && decide (pair ≠ written)])))

/-- SET MACHINE on group 3 (R60, R61). -/
def setConstantsGroup (pl : List Byte) (s : State) : State × Reply :=
  let alter := nat2 pl 1
  let w := readConstantsBlock pl 3
  let altered := alterConstants s.rs.constants w alter
  (applyConstants (hystStep altered) s, answer (byte1 3 ++ byte2 (constantsClampMask altered w alter)))

/-- SET MACHINE (R59 to R61, and R192 for an empty payload). -/
def cmdSetMachine (_p : Port) (pl : List Byte) (s : State) : State × Reply :=
  let group := nat1 pl 0
  if pl.length = 0 then (s, refuse .badLength)
  else if 3 < group then (s, refuse .badValue)
  else if pl.length ≠ setMachineLength group then (s, refuse .badLength)
  else if s.bt.bales ≠ [] then (s, refuse .busy)
  else
    match groupChannel group with
    | some ch => setChannelGroup ch group pl s
    | none => setConstantsGroup pl s

/-- READ MACHINE (R62). -/
def cmdReadMachine (_p : Port) (pl : List Byte) (s : State) : State × Reply :=
  let group := nat1 pl 0
  if 3 < group then (s, refuse .badValue)
  else
    match groupChannel group with
    | some ch =>
      (s, answer (byte1 group ++ byte1 (s.rs.chan.get ch).period ++ pairBlock (s.rs.chan.get ch).pair))
    | none => (s, answer (byte1 group ++ constantsBlock s.rs.constants))

end Sys2Proof.Machine
end

