-- ==== Sys2Proof/Machine/ReportCommands.lean ====
section
/-! DEFINITION. FETCH REPORT, RELEASE REPORT, QUEUE STATUS (chapter 8). -/

namespace Sys2Proof.Machine

/-- The `seq` of the head report, or 0 when the queue is empty (R161, R163). -/
def ReportQueue.headSeq (q : ReportQueue) : Nat :=
  match q.queue with
  | r :: _ => r.seq
  | [] => 0

/-- The queue after the head is released: the held report moves to the tail (R161). -/
def ReportQueue.release (q : ReportQueue) : ReportQueue :=
  match q.holding with
  | some r => { q with queue := q.queue.tail ++ [r], holding := none }
  | none => { q with queue := q.queue.tail }

/-- FETCH REPORT (R160). -/
def cmdFetchReport (p : Port) (_pl : List Byte) (s : State) : State × Reply :=
  match s.rq.queue with
  | [] => (s, refuse .empty)
  | r :: _ => takeImage p (baleImage r) s

/-- RELEASE REPORT (R161). The release touches no transfer image (R160, R162); that port C's own is gone by then, since
`beforeTake` discards it for every command but READ NEXT (R196), is the model's reading of R160 (DEDUCED, log entry 28). -/
def cmdReleaseReport (_p : Port) (pl : List Byte) (s : State) : State × Reply :=
  match s.rq.queue with
  | [] => (s, refuse .empty)
  | r :: _ =>
    if r.seq ≠ nat2 pl 0 then (s, ⟨.stale, byte2 r.seq⟩)
    else
      ({ s with rq := s.rq.release },
        answer (byte2 r.seq ++ byte1 s.rq.release.queue.length ++ flag1 s.rq.release.holding.isSome ++
          byte2 s.rq.release.headSeq))

/-- QUEUE STATUS (R163). -/
def cmdQueueStatus (_p : Port) (pl : List Byte) (s : State) : State × Reply :=
  if 1 < nat1 pl 0 then (s, refuse .badValue)
  else
    ({ s with rq := { s.rq with overrun := s.rq.overrun && decide (nat1 pl 0 = 0) } },
      answer (byte1 s.rq.queue.length ++ flag1 s.rq.holding.isSome ++ byte2 s.rq.lost ++ flag1 s.rq.overrun ++
        byte2 s.rq.headSeq))

end Sys2Proof.Machine
end

