-- ==== Sys2Proof/Machine/WrapCommands.lean ====
section
/-! DEFINITION. TIP and ABANDON WRAP (chapter 6). -/

namespace Sys2Proof.Machine

/-- The forced tip's flags (R126). -/
def flagForcedTip (s : State) : State :=
  s.flagRecord .table (fun f => { f with underwrapped := true, forcedTip := true })

/-- TIP (R125, R126). -/
def cmdTip (_p : Port) (pl : List Byte) (s : State) : State × Reply :=
  let force := nat1 pl 0
  if 1 < force then (s, refuse .badValue)
  else
    match s.recordIn .table with
    | none => (s, refuse .notReady)
    | some b =>
      if b.stage = .wrapped then
        if s.mi.stop.filtered then (s, refuse .stopped)
        else (enterStage .table .tipping s, answer (byte2 b.seq ++ flag1 false))
      else if b.stage = .wrapping ∧ force = 1 then
        if s.mi.stop.filtered then (s, refuse .stopped)
        else (enterStage .table .tipping (flagForcedTip s), answer (byte2 b.seq ++ flag1 true))
      else (s, refuse .notReady)

/-- ABANDON WRAP (R124). -/
def cmdAbandonWrap (_p : Port) (_pl : List Byte) (s : State) : State × Reply :=
  match s.wrapping with
  | none => (s, refuse .notReady)
  | some (b, w) =>
    (enterStage .table .wrapped (s.flagRecord .table (fun f => { f with underwrapped := true })),
      answer (byte2 b.seq ++ byte1 (lowestCount w.layers) ++ byte1 w.revolutions))

end Sys2Proof.Machine
end

