-- ==== Sys2Proof/Machine/Take.lean ====
section
/-! DEFINITION. Taking a request (R190, R192, R196): the checks common to all commands, the owning block, the response. -/

namespace Sys2Proof.Machine

/-- The owning block's part of a command (R192). -/
def ownBlock (c : Command) (p : Port) (pl : List Byte) (s : State) : State × Reply :=
  match c with
  | .identify => cmdIdentify p pl s
  | .readStatus => cmdReadStatus p pl s
  | .readNext => cmdReadNext p pl s
  | .takeNotice => cmdTakeNotice p pl s
  | .ackNotice => cmdAckNotice p pl s
  | .setNoticePlan => cmdSetNoticePlan p pl s
  | .ackCurrent => cmdAckCurrent p pl s
  | .readLinkStats => cmdReadLinkStats p pl s
  | .portReset => cmdPortReset p pl s
  | .readBale => cmdReadBale p pl s
  | .readChannel => cmdReadChannel p pl s
  | .holdZero => cmdHoldZero p pl s
  | .releaseZero => cmdReleaseZero p pl s
  | .prezero => cmdPrezero p pl s
  | .openBale => cmdOpenBale p pl s
  | .dumpPrechamber => cmdDumpPrechamber p pl s
  | .netStart => cmdNetStart p pl s
  | .netAbort => cmdNetAbort p pl s
  | .requestEject => cmdRequestEject p pl s
  | .cancelEject => cmdCancelEject p pl s
  | .discardBale => cmdDiscardBale p pl s
  | .tip => cmdTip p pl s
  | .abandonWrap => cmdAbandonWrap p pl s
  | .restoreDispenser => cmdRestoreDispenser p pl s
  | .withdrawDispenser => cmdWithdrawDispenser p pl s
  | .holdTable => cmdHoldTable p pl s
  | .freeTable => cmdFreeTable p pl s
  | .loadRecipe => cmdLoadRecipe p pl s
  | .readRecipe => cmdReadRecipe p pl s
  | .setMachine => cmdSetMachine p pl s
  | .readMachine => cmdReadMachine p pl s
  | .newRoll => cmdNewRoll p pl s
  | .readStock => cmdReadStock p pl s
  | .fetchReport => cmdFetchReport p pl s
  | .releaseReport => cmdReleaseReport p pl s
  | .queueStatus => cmdQueueStatus p pl s

/-- A known command carried out: the port check, the length check, then the owning block (R192). -/
def carryOut (c : Command) (p : Port) (pl : List Byte) (s : State) : State × Reply :=
  if c.permits p = false then (s, refuse .notPermitted)
  else if c.lengthFits pl = false then (s, refuse .badLength)
  else ownBlock c p pl s

/-- LC's test of its buffer before a request is taken: an unconsumed response is discarded and counted (R190). -/
def loseResponse (s : State) : State :=
  match s.lc.buffer with
  | some _ => countTargetError .responseLost (s.modifyTarget (fun x => { x with buffer := none, readPos := 0 }))
  | none => s

/-- The response handed to a port: its transmission begins on A or B (R186), it fills the buffer on C (R190). -/
def deliver (p : Port) (r : Response) (s : State) : State :=
  match p with
  | .a => { s with la := { s.la with tx := some r } }
  | .b => { s with lb := { s.lb with tx := some r } }
  | .c => { s with lc := { s.lc with buffer := some r, readPos := 0 } }

/-- What comes before the owning block when a request is taken: LC's test (R190), the FRAMES step (R192), and the
discard of the port's transfer image by every command but READ NEXT (R196).

DEDUCED, unsafe (log entry 28): RELEASE REPORT is such a command too, so taking it discards port C's own image. R160 also
says that a release leaves the images of all three ports as they were taken; the last sentence of its paragraph and R196
make no exception for RELEASE REPORT, and the model follows these. The images of ports A and B stay. -/
def beforeTake (p : Port) (code : Byte) (s : State) : State :=
  let tested := if p = .c then loseResponse s else s
  let counted := stepFrames p tested
  if commandOfCode code = some .readNext then counted else counted.setImage p none

/-- A request carried out on a state prepared by `beforeTake` (R192). -/
def carryOutCode (p : Port) (code : Byte) (pl : List Byte) (s : State) : State × Reply :=
  match commandOfCode code with
  | some c => carryOut c p pl s
  | none => (s, refuse .unknownCommand)

/-- The response delivered to the state the command left (R192). -/
def respond (p : Port) (code : Byte) (x : State × Reply) : State := deliver p ⟨code, x.2⟩ x.1

/-- A request taken on a port (R192). While nRST is asserted the link units take none (R202, log entry 4). -/
def takeRequest (p : Port) (code : Byte) (pl : List Byte) (s : State) : State :=
  if s.nrstAsserted then s else respond p code (carryOutCode p code pl (beforeTake p code s))

end Sys2Proof.Machine
end

