-- ==== Sys2Proof/Machine/Requests.lean ====
section
/-! DEFINITION. The request rows of the table: each is the taking of its request on the port named, by R192, with the
attention lines brought into line afterwards (R171). -/

namespace Sys2Proof.Machine

/-- UNKNOWN_COMMAND: a request with a code not in Table 10-3 (R192). -/
def execUnknownCommand (p : Port) (code : Byte) (pl : List Byte) (s : State) : Host.Outcome State Fault Refusal :=
  .next (refreshAttention (takeRequest p code pl s))

/-- IDENTIFY (R199). -/
def execIdentify (p : Port) (pl : List Byte) (s : State) : Host.Outcome State Fault Refusal :=
  .next (refreshAttention (takeRequest p Command.identify.byte pl s))

/-- READ_STATUS (R200). -/
def execReadStatus (p : Port) (pl : List Byte) (s : State) : Host.Outcome State Fault Refusal :=
  .next (refreshAttention (takeRequest p Command.readStatus.byte pl s))

/-- READ_NEXT (R195). -/
def execReadNext (p : Port) (pl : List Byte) (s : State) : Host.Outcome State Fault Refusal :=
  .next (refreshAttention (takeRequest p Command.readNext.byte pl s))

/-- TAKE_NOTICE (R172). -/
def execTakeNotice (p : Port) (pl : List Byte) (s : State) : Host.Outcome State Fault Refusal :=
  .next (refreshAttention (takeRequest p Command.takeNotice.byte pl s))

/-- ACK_NOTICE (R174). -/
def execAckNotice (p : Port) (pl : List Byte) (s : State) : Host.Outcome State Fault Refusal :=
  .next (refreshAttention (takeRequest p Command.ackNotice.byte pl s))

/-- SET_NOTICE_PLAN (R178). -/
def execSetNoticePlan (p : Port) (pl : List Byte) (s : State) : Host.Outcome State Fault Refusal :=
  .next (refreshAttention (takeRequest p Command.setNoticePlan.byte pl s))

/-- ACK_CURRENT (R175). -/
def execAckCurrent (p : Port) (pl : List Byte) (s : State) : Host.Outcome State Fault Refusal :=
  .next (refreshAttention (takeRequest p Command.ackCurrent.byte pl s))

/-- READ_LINK_STATS (R198). -/
def execReadLinkStats (p : Port) (pl : List Byte) (s : State) : Host.Outcome State Fault Refusal :=
  .next (refreshAttention (takeRequest p Command.readLinkStats.byte pl s))

/-- PORT_RESET (R201). -/
def execPortReset (p : Port) (pl : List Byte) (s : State) : Host.Outcome State Fault Refusal :=
  .next (refreshAttention (takeRequest p Command.portReset.byte pl s))

/-- READ_BALE (R21). -/
def execReadBale (p : Port) (pl : List Byte) (s : State) : Host.Outcome State Fault Refusal :=
  .next (refreshAttention (takeRequest p Command.readBale.byte pl s))

/-- READ_CHANNEL (R41). -/
def execReadChannel (p : Port) (pl : List Byte) (s : State) : Host.Outcome State Fault Refusal :=
  .next (refreshAttention (takeRequest p Command.readChannel.byte pl s))

/-- HOLD_ZERO (R38). -/
def execHoldZero (p : Port) (pl : List Byte) (s : State) : Host.Outcome State Fault Refusal :=
  .next (refreshAttention (takeRequest p Command.holdZero.byte pl s))

/-- RELEASE_ZERO (R38). -/
def execReleaseZero (p : Port) (pl : List Byte) (s : State) : Host.Outcome State Fault Refusal :=
  .next (refreshAttention (takeRequest p Command.releaseZero.byte pl s))

/-- PREZERO (R39). -/
def execPrezero (p : Port) (pl : List Byte) (s : State) : Host.Outcome State Fault Refusal :=
  .next (refreshAttention (takeRequest p Command.prezero.byte pl s))

/-- OPEN_BALE (R17). -/
def execOpenBale (p : Port) (pl : List Byte) (s : State) : Host.Outcome State Fault Refusal :=
  .next (refreshAttention (takeRequest p Command.openBale.byte pl s))

/-- DUMP_PRECHAMBER (R18). -/
def execDumpPrechamber (p : Port) (pl : List Byte) (s : State) : Host.Outcome State Fault Refusal :=
  .next (refreshAttention (takeRequest p Command.dumpPrechamber.byte pl s))

/-- NET_START (R77). -/
def execNetStart (p : Port) (pl : List Byte) (s : State) : Host.Outcome State Fault Refusal :=
  .next (refreshAttention (takeRequest p Command.netStart.byte pl s))

/-- NET_ABORT (R83). -/
def execNetAbort (p : Port) (pl : List Byte) (s : State) : Host.Outcome State Fault Refusal :=
  .next (refreshAttention (takeRequest p Command.netAbort.byte pl s))

/-- REQUEST_EJECT (R91). -/
def execRequestEject (p : Port) (pl : List Byte) (s : State) : Host.Outcome State Fault Refusal :=
  .next (refreshAttention (takeRequest p Command.requestEject.byte pl s))

/-- CANCEL_EJECT (R94). -/
def execCancelEject (p : Port) (pl : List Byte) (s : State) : Host.Outcome State Fault Refusal :=
  .next (refreshAttention (takeRequest p Command.cancelEject.byte pl s))

/-- DISCARD_BALE (R19). -/
def execDiscardBale (p : Port) (pl : List Byte) (s : State) : Host.Outcome State Fault Refusal :=
  .next (refreshAttention (takeRequest p Command.discardBale.byte pl s))

/-- TIP (R126). -/
def execTip (p : Port) (pl : List Byte) (s : State) : Host.Outcome State Fault Refusal :=
  .next (refreshAttention (takeRequest p Command.tip.byte pl s))

/-- ABANDON_WRAP (R124). -/
def execAbandonWrap (p : Port) (pl : List Byte) (s : State) : Host.Outcome State Fault Refusal :=
  .next (refreshAttention (takeRequest p Command.abandonWrap.byte pl s))

/-- RESTORE_DISPENSER (R139). -/
def execRestoreDispenser (p : Port) (pl : List Byte) (s : State) : Host.Outcome State Fault Refusal :=
  .next (refreshAttention (takeRequest p Command.restoreDispenser.byte pl s))

/-- WITHDRAW_DISPENSER (R140). -/
def execWithdrawDispenser (p : Port) (pl : List Byte) (s : State) : Host.Outcome State Fault Refusal :=
  .next (refreshAttention (takeRequest p Command.withdrawDispenser.byte pl s))

/-- HOLD_TABLE (R95). -/
def execHoldTable (p : Port) (pl : List Byte) (s : State) : Host.Outcome State Fault Refusal :=
  .next (refreshAttention (takeRequest p Command.holdTable.byte pl s))

/-- FREE_TABLE (R95). -/
def execFreeTable (p : Port) (pl : List Byte) (s : State) : Host.Outcome State Fault Refusal :=
  .next (refreshAttention (takeRequest p Command.freeTable.byte pl s))

/-- LOAD_RECIPE (R55). -/
def execLoadRecipe (p : Port) (pl : List Byte) (s : State) : Host.Outcome State Fault Refusal :=
  .next (refreshAttention (takeRequest p Command.loadRecipe.byte pl s))

/-- READ_RECIPE (R57). -/
def execReadRecipe (p : Port) (pl : List Byte) (s : State) : Host.Outcome State Fault Refusal :=
  .next (refreshAttention (takeRequest p Command.readRecipe.byte pl s))

/-- SET_MACHINE (R60). -/
def execSetMachine (p : Port) (pl : List Byte) (s : State) : Host.Outcome State Fault Refusal :=
  .next (refreshAttention (takeRequest p Command.setMachine.byte pl s))

/-- READ_MACHINE (R62). -/
def execReadMachine (p : Port) (pl : List Byte) (s : State) : Host.Outcome State Fault Refusal :=
  .next (refreshAttention (takeRequest p Command.readMachine.byte pl s))

/-- NEW_ROLL (R147). -/
def execNewRoll (p : Port) (pl : List Byte) (s : State) : Host.Outcome State Fault Refusal :=
  .next (refreshAttention (takeRequest p Command.newRoll.byte pl s))

/-- READ_STOCK (R151). -/
def execReadStock (p : Port) (pl : List Byte) (s : State) : Host.Outcome State Fault Refusal :=
  .next (refreshAttention (takeRequest p Command.readStock.byte pl s))

/-- FETCH_REPORT (R160). -/
def execFetchReport (p : Port) (pl : List Byte) (s : State) : Host.Outcome State Fault Refusal :=
  .next (refreshAttention (takeRequest p Command.fetchReport.byte pl s))

/-- RELEASE_REPORT (R161). -/
def execReleaseReport (p : Port) (pl : List Byte) (s : State) : Host.Outcome State Fault Refusal :=
  .next (refreshAttention (takeRequest p Command.releaseReport.byte pl s))

/-- QUEUE_STATUS (R163). -/
def execQueueStatus (p : Port) (pl : List Byte) (s : State) : Host.Outcome State Fault Refusal :=
  .next (refreshAttention (takeRequest p Command.queueStatus.byte pl s))

end Sys2Proof.Machine
end

