-- ==== Sys2Proof/Machine/Resets.lean ====
section
/-! DEFINITION. Power-on reset and the two edges of nRST (R26, R27, R42, R44, R51, R86, R102, R152, R164, R165, R182,
R202). -/

namespace Sys2Proof.Machine

/-- Every live record closed with RESET, oldest first (R26). -/
def closeAll (s : State) : State := s.bt.bales.foldl (fun t b => closeRecord b.stage.zone .reset t) s

/-- A channel record at a pin reset's assertion (Table 2-5). Its timers stop until the release (log entry 19). -/
def ChannelRecord.pinReset (c : ChannelRecord) : ChannelRecord :=
  { c with stale := true, saturated := false, debt := 0, hold := noPorts, zeroing := false, convTimer := .stopped,
           zeroDueTimer := .stopped }

/-- A channel record at the release of nRST: both timers started (Table 2-5). -/
def ChannelRecord.restart (c : ChannelRecord) (period : Nat) : ChannelRecord :=
  { c with convTimer := .running period, zeroDueTimer := .running zeroDueMs }

/-- A dispenser at a pin reset: OUT, counter and residue at 0, stock kept (Table 7-1). -/
def DispenserRecord.pinReset (d : DispenserRecord) : DispenserRecord := { d with state := .out, silence := 0, residue := 0 }

/-- The assertion of nRST: the closures first (R26, R164), then each block's pin reset. RS, MI, the run clock, the
sequence counter, RQ and the stocks are kept. -/
def assertReset (s : State) : State :=
  let closed := closeAll s
  { closed with
    nrstAsserted := true
    mf := ⟨closed.mf.p.pinReset, closed.mf.d.pinReset, closed.mf.m.pinReset⟩
    cu := idleChamber
    hu := idleHandover
    ds := { closed.ds with film := ⟨closed.ds.film.one.pinReset, closed.ds.film.two.pinReset⟩ }
    na := defaultArbiters false
    la := idleLine
    lb := idleLine
    lc := { idleTarget with acks := closed.lc.acks, sda := closed.lc.sda } }

/-- The release of nRST: straps sampled (R51), channel timers started (R42), link units as after PORT RESET (R202). -/
def releaseReset (straps : Straps) (s : State) : State :=
  { s with
    nrstAsserted := false
    straps := straps
    mf := ⟨s.mf.p.restart s.rs.chan.p.period, s.mf.d.restart s.rs.chan.d.period, s.mf.m.restart s.rs.chan.m.period⟩
    la := idleLine
    lb := idleLine
    lc := { idleTarget with acks := s.lc.acks, sda := s.lc.sda } }

/-- Power-on: everything at its power-on value, the straps sampled (R51), the level pins compared at once (R44). The
queue of steps, `freeCount` and the level pins are not the part's and stay (log entry 7). -/
def powerOn (straps : Straps) (s : State) : State :=
  { pending := s.pending
    nrstAsserted := false
    straps := straps
    bt := emptyTable
    mf := ⟨powerOnChannel 20, powerOnChannel 50, powerOnChannel 100⟩
    mi := ⟨powerOnLevel true s.mi.stop.pin, powerOnLevel false s.mi.tailgate.pin,
      powerOnLevel false s.mi.tableLoaded.pin, 0⟩
    rs := defaultStore
    cu := idleChamber
    hu := idleHandover
    ds := powerOnStock
    rq := emptyQueue
    na := defaultArbiters false
    la := idleLine
    lb := idleLine
    lc := idleTarget
    freeCount := s.freeCount }

/-- POWER_ON_RESET (R27). -/
def execPowerOnReset (straps : Straps) (s : State) : Host.Outcome State Fault Refusal :=
  .next (refreshAttention (powerOn straps s))

/-- PIN_RESET_ASSERTION (R26). -/
def execPinResetAssertion (s : State) : Host.Outcome State Fault Refusal :=
  .next (refreshAttention (assertReset s))

/-- PIN_RESET_RELEASE (R202). With nRST not asserted there is nothing to release (log entry 23). -/
def execPinResetRelease (straps : Straps) (s : State) : Host.Outcome State Fault Refusal :=
  .next (refreshAttention (if s.nrstAsserted then releaseReset straps s else s))

end Sys2Proof.Machine
end

