-- ==== Sys2Proof/Machine/Wire.lean ====
section
/-! DEFINITION. The wire events: characters, timeout and transmission on ports A and B (R184 to R187), transactions on
port C (R189 to R191). While nRST is asserted the link units ignore their lines (R202). -/

namespace Sys2Proof.Machine

/-- The partial frame abandoned: counted if it held data characters (R184). The receiver is left to the event. -/
def abandonFrame (l : LinePort) (s : State) : State :=
  match (s.line l).rx with
  | .listening (_ :: _) _ => countLineError l .abandoned s
  | _ => s

/-- The receiver of a port put in a state. -/
def setReceiver (l : LinePort) (rx : Receiver) (s : State) : State := s.modifyLine l (fun x => { x with rx := rx })

/-- A good frame handled according to the transmitter (R186). -/
def handleGood (l : LinePort) (r : Request) (s : State) : State :=
  match (s.line l).tx with
  | none => takeRequest (linePort l) r.code r.payload s
  | some _ =>
    match (s.line l).held with
    | none => s.modifyLine l (fun x => { x with held := some r })
    | some _ => (countLineError l .pendingLost s).modifyLine l (fun x => { x with held := some r })

/-- The request a complete frame carries: command, length, payload, check (Table 10-1). -/
def requestOf (chars : List Byte) : Request :=
  { code := chars.getD 0 0, payload := (chars.drop 2).take (nat1 chars 1) }

/-- The checks at the completion of a frame (R185). The receiver is DOZING already (log entry 10). -/
def completeFrame (l : LinePort) (chars : List Byte) (damaged : Bool) (s : State) : State :=
  if damaged then countLineError l .framing s
  else if byteSum chars ≠ 0 then countLineError l .check s
  else handleGood l (requestOf chars) s

/-- A data character received while LISTENING, the character appended already (R184). -/
def afterAppend (l : LinePort) (chars : List Byte) (damaged : Bool) (s : State) : State :=
  if chars.length = 2 ∧ 48 < nat1 chars 1 then setReceiver l .dozing (countLineError l .abandoned s)
  else if 3 ≤ chars.length ∧ chars.length = 3 + nat1 chars 1 then
    completeFrame l chars damaged (setReceiver l .dozing s)
  else setReceiver l (.listening chars damaged) s

/-- A character with its flag at 1 (R183, R184). -/
def addressCharacter (l : LinePort) (data : Byte) (stopError : Bool) (s : State) : State :=
  if s.nrstAsserted then s
  else if data.toNat = addressOf s.straps (linePort l) then
    setReceiver l (.listening [] stopError) (abandonFrame l s)
  else setReceiver l .dozing (abandonFrame l s)

/-- A character with its flag at 0 (R184). -/
def dataCharacter (l : LinePort) (data : Byte) (stopError : Bool) (s : State) : State :=
  if s.nrstAsserted then s
  else
    match (s.line l).rx with
    | .dozing => s
    | .listening chars damaged => afterAppend l (chars ++ [data]) (damaged || stopError) s

/-- The inter-character timeout (R184). It cannot run out while DOZING (log entry 5). -/
def interCharacterTimeout (l : LinePort) (s : State) : State :=
  if s.nrstAsserted then s else setReceiver l .dozing (abandonFrame l s)

/-- The characters of the transmission under way on port A or B, none while the transmitter is idle (R187). The straps
change only at a reset, which leaves no transmission, so the characters are fixed when the request is taken. -/
def State.sends (s : State) (l : LinePort) : List LineCharacter :=
  match (s.line l).tx with
  | some r => r.characters (addressOf s.straps (linePort l))
  | none => []

/-- The end of a response transmission: the pending frame is taken, or the transmitter becomes idle (R186). -/
def transmissionCompletion (l : LinePort) (s : State) : State :=
  if s.nrstAsserted then s
  else
    match (s.line l).tx, (s.line l).held with
    | none, _ => s
    | some _, none => s.modifyLine l (fun x => { x with tx := none })
    | some _, some r =>
      takeRequest (linePort l) r.code r.payload (s.modifyLine l (fun x => { x with tx := none, held := none }))

/-- What LC put on port C's wires in a transaction: its acknowledgements and the bytes it returned (log entry 16). -/
def State.onWires (s : State) (acks : List Bool) (sda : List Byte) : State :=
  s.modifyTarget (fun x => { x with acks := acks, sda := sda })

/-- Whether LC acknowledges the address of a transaction: its own alone (R189), and none while nRST is asserted (R202). -/
def State.acknowledges (s : State) (address : BitVec 7) : Bool :=
  !s.nrstAsserted && address.toNat == addressOf s.straps .c

/-- LC's decision at the end of a write to its address, on the bytes received (R189). -/
def decideWrite (bytes : List Byte) (s : State) : State :=
  if bytes.length = 0 then s
  else if 51 < bytes.length ∨ bytes.length ≠ 3 + nat1 bytes 1 then countTargetError .length s
  else if byteSum bytes ≠ 0 then countTargetError .check s
  else takeRequest .c (requestOf bytes).code (requestOf bytes).payload s

/-- The end of a write on port C's wires (R189): where LC acknowledges its address it acknowledges the bytes and decides;
where it does not, it does neither. -/
def writeTransaction (write : WriteTransfer) (s : State) : State :=
  if s.acknowledges write.address then decideWrite write.bytes (s.onWires (writeAcks write.bytes.length) [])
  else s.onWires [] []

/-- The bytes port C offers to a read: the response, or the idle frame with the buffer empty (R191). -/
def State.readable (s : State) : List Byte :=
  match s.lc.buffer with
  | some r => r.bytes
  | none => idleFrame

/-- The bytes a read of `count` bytes returns: 0xFF beyond the frame (R191). -/
def readBytes (frame : List Byte) (count : Nat) : List Byte :=
  frame.take count ++ List.replicate (count - frame.length) 0xFF

/-- The response buffer after a read of `count` bytes: the reading of the check byte consumes the response (R191). -/
def afterRead (count : Nat) (s : State) : State :=
  s.modifyTarget (fun x =>
    { x with
      buffer := if s.readable.length ≤ count then none else x.buffer
      readPos := if s.readable.length ≤ count then 0 else if x.buffer.isSome then count else 0 })

/-- A read on port C's wires (R189, R191): where LC acknowledges its address it returns the response or the idle frame;
where it does not, it returns nothing. -/
def readTransaction (read : ReadTransfer) (s : State) : State :=
  if s.acknowledges read.address then afterRead read.count (s.onWires [true] (readBytes s.readable read.count))
  else s.onWires [] []

/-- ADDRESS_CHARACTER (R184). -/
def execAddressCharacter (l : LinePort) (data : Byte) (stopError : Bool) (s : State) :
    Host.Outcome State Fault Refusal :=
  .next (refreshAttention (addressCharacter l data stopError s))

/-- DATA_CHARACTER (R184 to R186). -/
def execDataCharacter (l : LinePort) (data : Byte) (stopError : Bool) (s : State) :
    Host.Outcome State Fault Refusal :=
  .next (refreshAttention (dataCharacter l data stopError s))

/-- INTER_CHARACTER_TIMEOUT (R184). -/
def execInterCharacterTimeout (l : LinePort) (s : State) : Host.Outcome State Fault Refusal :=
  .next (refreshAttention (interCharacterTimeout l s))

/-- RESPONSE_TRANSMISSION_COMPLETION (R186, R187). -/
def execResponseTransmissionCompletion (l : LinePort) (s : State) : Host.Outcome State Fault Refusal :=
  .next (refreshAttention (transmissionCompletion l s))

/-- WRITE_TRANSACTION (R189, R190). -/
def execWriteTransaction (write : WriteTransfer) (s : State) : Host.Outcome State Fault Refusal :=
  .next (refreshAttention (writeTransaction write s))

/-- READ_TRANSACTION (R189, R191). -/
def execReadTransaction (read : ReadTransfer) (s : State) : Host.Outcome State Fault Refusal :=
  .next (refreshAttention (readTransaction read s))

end Sys2Proof.Machine
end

