-- ==== Sys2Proof/Machine/Dispatch.lean ====
section
/-! DEFINITION. One arm per command. -/

namespace Sys2Proof.Machine

def exec (i : Instr) (s : State) : Host.Outcome State Fault Refusal :=
  match i with
  | .powerOnReset straps => Sys2Proof.Machine.execPowerOnReset straps s
  | .pinResetAssertion => Sys2Proof.Machine.execPinResetAssertion s
  | .pinResetRelease straps => Sys2Proof.Machine.execPinResetRelease straps s
  | .runClockTick => Sys2Proof.Machine.execRunClockTick s
  | .pdmOutputSlot => Sys2Proof.Machine.execPdmOutputSlot s
  | .levelPinChange input asserted => Sys2Proof.Machine.execLevelPinChange input asserted s
  | .stabilityTimerExpiry input => Sys2Proof.Machine.execStabilityTimerExpiry input s
  | .tablePulse => Sys2Proof.Machine.execTablePulse s
  | .tableIndex => Sys2Proof.Machine.execTableIndex s
  | .baleRoll => Sys2Proof.Machine.execBaleRoll s
  | .netRoll => Sys2Proof.Machine.execNetRoll s
  | .filmPulse dispenser => Sys2Proof.Machine.execFilmPulse dispenser s
  | .conversionCompletion channel raw => Sys2Proof.Machine.execConversionCompletion channel raw s
  | .zeroDueExpiry channel => Sys2Proof.Machine.execZeroDueExpiry channel s
  | .autoZeroCompletion channel => Sys2Proof.Machine.execAutoZeroCompletion channel s
  | .netCatchExpiry => Sys2Proof.Machine.execNetCatchExpiry s
  | .transferTimerExpiry => Sys2Proof.Machine.execTransferTimerExpiry s
  | .addressCharacter line data stopError => Sys2Proof.Machine.execAddressCharacter line data stopError s
  | .dataCharacter line data stopError => Sys2Proof.Machine.execDataCharacter line data stopError s
  | .interCharacterTimeout line => Sys2Proof.Machine.execInterCharacterTimeout line s
  | .responseTransmissionCompletion line => Sys2Proof.Machine.execResponseTransmissionCompletion line s
  | .writeTransaction write => Sys2Proof.Machine.execWriteTransaction write s
  | .readTransaction read => Sys2Proof.Machine.execReadTransaction read s
  | .unknownCommand port code payload => Sys2Proof.Machine.execUnknownCommand port code payload s
  | .identify port payload => Sys2Proof.Machine.execIdentify port payload s
  | .readStatus port payload => Sys2Proof.Machine.execReadStatus port payload s
  | .readNext port payload => Sys2Proof.Machine.execReadNext port payload s
  | .takeNotice port payload => Sys2Proof.Machine.execTakeNotice port payload s
  | .ackNotice port payload => Sys2Proof.Machine.execAckNotice port payload s
  | .setNoticePlan port payload => Sys2Proof.Machine.execSetNoticePlan port payload s
  | .ackCurrent port payload => Sys2Proof.Machine.execAckCurrent port payload s
  | .readLinkStats port payload => Sys2Proof.Machine.execReadLinkStats port payload s
  | .portReset port payload => Sys2Proof.Machine.execPortReset port payload s
  | .readBale port payload => Sys2Proof.Machine.execReadBale port payload s
  | .readChannel port payload => Sys2Proof.Machine.execReadChannel port payload s
  | .holdZero port payload => Sys2Proof.Machine.execHoldZero port payload s
  | .releaseZero port payload => Sys2Proof.Machine.execReleaseZero port payload s
  | .prezero port payload => Sys2Proof.Machine.execPrezero port payload s
  | .openBale port payload => Sys2Proof.Machine.execOpenBale port payload s
  | .dumpPrechamber port payload => Sys2Proof.Machine.execDumpPrechamber port payload s
  | .netStart port payload => Sys2Proof.Machine.execNetStart port payload s
  | .netAbort port payload => Sys2Proof.Machine.execNetAbort port payload s
  | .requestEject port payload => Sys2Proof.Machine.execRequestEject port payload s
  | .cancelEject port payload => Sys2Proof.Machine.execCancelEject port payload s
  | .discardBale port payload => Sys2Proof.Machine.execDiscardBale port payload s
  | .tip port payload => Sys2Proof.Machine.execTip port payload s
  | .abandonWrap port payload => Sys2Proof.Machine.execAbandonWrap port payload s
  | .restoreDispenser port payload => Sys2Proof.Machine.execRestoreDispenser port payload s
  | .withdrawDispenser port payload => Sys2Proof.Machine.execWithdrawDispenser port payload s
  | .holdTable port payload => Sys2Proof.Machine.execHoldTable port payload s
  | .freeTable port payload => Sys2Proof.Machine.execFreeTable port payload s
  | .loadRecipe port payload => Sys2Proof.Machine.execLoadRecipe port payload s
  | .readRecipe port payload => Sys2Proof.Machine.execReadRecipe port payload s
  | .setMachine port payload => Sys2Proof.Machine.execSetMachine port payload s
  | .readMachine port payload => Sys2Proof.Machine.execReadMachine port payload s
  | .newRoll port payload => Sys2Proof.Machine.execNewRoll port payload s
  | .readStock port payload => Sys2Proof.Machine.execReadStock port payload s
  | .fetchReport port payload => Sys2Proof.Machine.execFetchReport port payload s
  | .releaseReport port payload => Sys2Proof.Machine.execReleaseReport port payload s
  | .queueStatus port payload => Sys2Proof.Machine.execQueueStatus port payload s

end Sys2Proof.Machine
end

