-- ==== Sys2Proof/Safety.lean ====
section
/-! DEFINITION. The terms the statements are made in: what a step leaves unchanged, what a command answers, which latch
settings an event hands on, and the invariants of the part. -/

namespace Sys2Proof.Machine

/-! ### Frames -/

/-- The parts of the state a frame speaks of, after the blocks of Table 0-1. -/
inductive Block where
  | pending | nrst | straps | bt | mf | mi | rs | cu | hu | ds | rq | arbiter (p : Port) | link (p : Port) | freeCount
  deriving DecidableEq, Repr

/-- A part reads the same in both states. An arbiter's attention line is not in it: it follows R171 in every state. -/
def Block.same (s t : State) : Block → Prop
  | .pending => t.pending = s.pending
  | .nrst => t.nrstAsserted = s.nrstAsserted
  | .straps => t.straps = s.straps
  | .bt => t.bt = s.bt
  | .mf => t.mf = s.mf
  | .mi => t.mi = s.mi
  | .rs => t.rs = s.rs
  | .cu => t.cu = s.cu
  | .hu => t.hu = s.hu
  | .ds => t.ds = s.ds
  | .rq => t.rq = s.rq
  | .arbiter p => (t.na.get p).latches = (s.na.get p).latches ∧ (t.na.get p).plan = (s.na.get p).plan ∧
      (t.na.get p).current = (s.na.get p).current
  | .link .a => t.la = s.la
  | .link .b => t.lb = s.lb
  | .link .c => t.lc = s.lc
  | .freeCount => t.freeCount = s.freeCount

/-- The frame: every part but those listed reads the same after as before. -/
def OnlyChanges (changed : List Block) (s t : State) : Prop := ∀ k, k ∉ changed → k.same s t

/-- The arbiters of all ports. -/
def arbiters : List Block := [.arbiter .a, .arbiter .b, .arbiter .c]

/-- The command runs and its next state is as said. -/
def Runs (i : Instr) (s : State) (after : State → Prop) : Prop := ∃ t, exec i s = .next t ∧ after t

/-! ### Latch settings (R167) -/

/-- A latch setting: the port it is handed to, the place and the detail. -/
structure Setting where
  port : Port
  source : Source
  inst : Fin 4
  detail : Nat
  deriving DecidableEq, Repr

/-- The detail in a latch place of a port while it is set. -/
def State.latch (s : State) (p : Port) (src : Source) (i : Fin 4) : Option Nat :=
  ((s.na.get p).latches.get src).get i

/-- What a place holds after settings that name different places. -/
def placeAfter (settings : List Setting) (p : Port) (src : Source) (i : Fin 4) (before : Option Nat) : Option Nat :=
  match settings.find? (fun x => x.port == p && x.source == src && x.inst == i) with
  | some x => some x.detail
  | none => before

/-- Exactly these settings reach the arbiters: each sets its place with its detail, every other place, every plan and
every current notice is unchanged (R166, R167). -/
def Hands (settings : List Setting) (s t : State) : Prop :=
  ∀ p, (t.na.get p).plan = (s.na.get p).plan ∧ (t.na.get p).current = (s.na.get p).current ∧
    ∀ src i, t.latch p src i = placeAfter settings p src i (s.latch p src i)

/-- The three STAGE settings of R14: the zone's number as instance, the record's `seq` as detail. -/
def stageSettings (z : Zone) (q : Nat) : List Setting :=
  [⟨.a, .stage, z.number, q⟩, ⟨.b, .stage, z.number, q⟩, ⟨.c, .stage, z.number, q⟩]

/-! ### Requests and responses -/

/-- The request a row of the table stands for: its port, code and payload. -/
def requestRow : Instr → Option (Port × Byte × List Byte)
  | .powerOnReset _ => none
  | .pinResetAssertion => none
  | .pinResetRelease _ => none
  | .runClockTick => none
  | .pdmOutputSlot => none
  | .levelPinChange _ _ => none
  | .stabilityTimerExpiry _ => none
  | .tablePulse => none
  | .tableIndex => none
  | .baleRoll => none
  | .netRoll => none
  | .filmPulse _ => none
  | .conversionCompletion _ _ => none
  | .zeroDueExpiry _ => none
  | .autoZeroCompletion _ => none
  | .netCatchExpiry => none
  | .transferTimerExpiry => none
  | .addressCharacter _ _ _ => none
  | .dataCharacter _ _ _ => none
  | .interCharacterTimeout _ => none
  | .responseTransmissionCompletion _ => none
  | .writeTransaction _ => none
  | .readTransaction _ => none
  | .unknownCommand p code pl => some (p, code, pl)
  | .identify p pl => some (p, 0x01, pl)
  | .readStatus p pl => some (p, 0x02, pl)
  | .readNext p pl => some (p, 0x03, pl)
  | .takeNotice p pl => some (p, 0x08, pl)
  | .ackNotice p pl => some (p, 0x09, pl)
  | .setNoticePlan p pl => some (p, 0x0A, pl)
  | .ackCurrent p pl => some (p, 0x0B, pl)
  | .readLinkStats p pl => some (p, 0x0C, pl)
  | .portReset p pl => some (p, 0x0F, pl)
  | .readBale p pl => some (p, 0x10, pl)
  | .readChannel p pl => some (p, 0x18, pl)
  | .holdZero p pl => some (p, 0x19, pl)
  | .releaseZero p pl => some (p, 0x1A, pl)
  | .prezero p pl => some (p, 0x1B, pl)
  | .openBale p pl => some (p, 0x20, pl)
  | .dumpPrechamber p pl => some (p, 0x21, pl)
  | .netStart p pl => some (p, 0x22, pl)
  | .netAbort p pl => some (p, 0x23, pl)
  | .requestEject p pl => some (p, 0x24, pl)
  | .cancelEject p pl => some (p, 0x25, pl)
  | .discardBale p pl => some (p, 0x26, pl)
  | .tip p pl => some (p, 0x30, pl)
  | .abandonWrap p pl => some (p, 0x31, pl)
  | .restoreDispenser p pl => some (p, 0x32, pl)
  | .withdrawDispenser p pl => some (p, 0x33, pl)
  | .holdTable p pl => some (p, 0x34, pl)
  | .freeTable p pl => some (p, 0x35, pl)
  | .loadRecipe p pl => some (p, 0x40, pl)
  | .readRecipe p pl => some (p, 0x41, pl)
  | .setMachine p pl => some (p, 0x42, pl)
  | .readMachine p pl => some (p, 0x43, pl)
  | .newRoll p pl => some (p, 0x44, pl)
  | .readStock p pl => some (p, 0x45, pl)
  | .fetchReport p pl => some (p, 0x48, pl)
  | .releaseReport p pl => some (p, 0x49, pl)
  | .queueStatus p pl => some (p, 0x4A, pl)

/-- The response a port carries: being sent on A or B (R186), in the buffer on C (R190). -/
def State.responseOn (s : State) : Port → Option Response
  | .a => s.la.tx
  | .b => s.lb.tx
  | .c => s.lc.buffer

/-- A port's FRAMES counter (Table 10-6). -/
def State.framesOf (s : State) : Port → Nat
  | .a => s.la.frames
  | .b => s.lb.frames
  | .c => s.lc.frames

/-- Port C holds an unconsumed response that the taking of a request on `p` discards (R190). -/
def State.loses (s : State) (p : Port) : Bool := decide (p = .c) && s.lc.buffer.isSome

/-- What the taking of a request changes besides the command's own effect: the port's link unit, and port C's LINK latch
where a response is lost. -/
def takeBlocks (p : Port) (s : State) : List Block := if s.loses p then [.link p, .arbiter .c] else [.link p]

/-- A port's link unit after a request as the taking leaves it: FRAMES has stepped, a response is there, the image may
have changed; on port C an unconsumed response was counted; all else is as it was (R190, R192, R196, R197). -/
def LinkKept (p : Port) (s t : State) : Prop :=
  (∀ l, p = linePort l → t.line l = { s.line l with
    tx := (t.line l).tx, frames := stepSaturating (s.line l).frames 255, image := (t.line l).image }) ∧
  (p = .c → t.lc = { s.lc with
    buffer := t.lc.buffer, readPos := 0, frames := stepSaturating s.lc.frames 255, image := t.lc.image
    responseLost := if s.lc.buffer.isSome then stepSaturating s.lc.responseLost 255 else s.lc.responseLost
    errorLatch := s.lc.errorLatch || s.lc.buffer.isSome })

/-- The port's response echoes the command's code and carries this status and payload (R192). -/
def Answered (p : Port) (c : Command) (st : Status) (payload : List Byte) (t : State) : Prop :=
  t.responseOn p = some ⟨BitVec.ofNat 8 c.code, ⟨st, payload⟩⟩

/-- The command is refused with a status: no payload, and no state of its owning block changes (00_scope.md, 4.3). -/
def Refused (p : Port) (c : Command) (st : Status) (s t : State) : Prop :=
  Answered p c st [] t ∧ OnlyChanges (takeBlocks p s) s t

/-- A row of Table 10-3: the code, the ports, and the request payload's length. SET MACHINE has two lengths and checks its
group first (R59, R192), so none is given. -/
structure CommandRow where
  code : Nat
  ports : List Port
  length : Option Nat
  deriving DecidableEq, Repr

/-- Table 10-3, first part: commands of all ports. -/
def sharedRows : List CommandRow :=
  [⟨0x01, [.a, .b, .c], some 0⟩, ⟨0x02, [.a, .b, .c], some 0⟩, ⟨0x03, [.a, .b, .c], some 1⟩,
   ⟨0x08, [.a, .b, .c], some 0⟩, ⟨0x09, [.a, .b, .c], some 2⟩, ⟨0x0A, [.a, .b, .c], some 23⟩,
   ⟨0x0B, [.a, .b, .c], some 0⟩, ⟨0x0C, [.a, .b, .c], some 1⟩, ⟨0x0F, [.a, .b, .c], some 0⟩,
   ⟨0x10, [.a, .b, .c], some 3⟩, ⟨0x18, [.a, .b, .c], some 1⟩, ⟨0x19, [.a, .b, .c], some 1⟩,
   ⟨0x1A, [.a, .b, .c], some 1⟩, ⟨0x1B, [.a, .b, .c], some 1⟩, ⟨0x41, [.a, .b, .c], some 1⟩,
   ⟨0x43, [.a, .b, .c], some 1⟩, ⟨0x45, [.a, .b, .c], some 0⟩, ⟨0x48, [.a, .b, .c], some 0⟩,
   ⟨0x4A, [.a, .b, .c], some 1⟩]

/-- Table 10-3, second part: commands of some ports. -/
def reservedRows : List CommandRow :=
  [⟨0x20, [.a], some 1⟩, ⟨0x21, [.a], some 0⟩, ⟨0x22, [.a], some 0⟩, ⟨0x23, [.a], some 0⟩, ⟨0x24, [.a], some 2⟩,
   ⟨0x25, [.a], some 2⟩, ⟨0x26, [.a, .b], some 2⟩, ⟨0x30, [.b], some 1⟩, ⟨0x31, [.b], some 0⟩, ⟨0x32, [.b], some 1⟩,
   ⟨0x33, [.b], some 1⟩, ⟨0x34, [.b], some 0⟩, ⟨0x35, [.b], some 0⟩, ⟨0x40, [.c], some 28⟩, ⟨0x42, [.c], none⟩,
   ⟨0x44, [.c], some 5⟩, ⟨0x49, [.c], some 2⟩]

/-- The commands of Table 10-3. -/
def commandRows : List CommandRow := sharedRows ++ reservedRows

/-- The status codes of Table 10-2. -/
def statusRows : List (Status × Nat) :=
  [(.ok, 0x00), (.more, 0x01), (.queued, 0x02), (.unknownCommand, 0x10), (.notPermitted, 0x11), (.badLength, 0x12),
   (.badValue, 0x13), (.notReady, 0x20), (.occupied, 0x21), (.noSuchBale, 0x22), (.stale, 0x23), (.busy, 0x24),
   (.stopped, 0x25), (.noTransfer, 0x26), (.empty, 0x27), (.invalidRecipe, 0x28)]

/-- A command with this code is refused by the checks of R192: no payload, nothing changed but by its taking. -/
def RefusedCode (p : Port) (code : Byte) (st : Status) (s t : State) : Prop :=
  t.responseOn p = some ⟨code, ⟨st, []⟩⟩ ∧ OnlyChanges (takeBlocks p s) s t

/-- The bytes of a response as Table 10-1 orders them: echo, status, length, payload, and the check that makes the sum 0
mod 256 (log entry 9). -/
def FrameOf (r : Response) (frame : List Byte) : Prop :=
  ∃ check : Byte, byteSum frame = 0 ∧
    frame = [r.echo, BitVec.ofNat 8 r.reply.status.code, BitVec.ofNat 8 r.reply.payload.length] ++ r.reply.payload ++
      [check]

/-- A field stands in an image at an offset. -/
def CarriesAt (image : List Byte) (offset : Nat) (field : List Byte) : Prop :=
  (image.drop offset).take field.length = field

/-! ### Records -/

/-- The record in zone `z` is `b`, after the records `older` and before the records `younger` (R8, R9). -/
def State.HoldsIn (s : State) (z : Zone) (older : List Bale) (b : Bale) (younger : List Bale) : Prop :=
  s.bt.bales = older ++ b :: younger ∧ b.stage.zone = z ∧ ∀ x ∈ older, x.stage.zone ≠ z

/-- No record stands in zone `z`. -/
def State.ZoneEmpty (s : State) (z : Zone) : Prop := ∀ x ∈ s.bt.bales, x.stage.zone ≠ z

/-- BT's list is as given, its counter and clock unchanged. -/
def BalesBecome (bales : List Bale) (s t : State) : Prop := t.bt = { s.bt with bales := bales }

/-- What the DV code is to be by R73, of a STOP level, the lockout, the chamber record and the computed code. -/
def driveCode (stop lockout chamber : Bool) (code : Nat) : Nat :=
  if stop = true ∨ lockout = true ∨ chamber = false then 0 else code

/-- Whether a chamber record makes BALE_FULL active by R69, of the held D value. -/
def fullFor (chamber : Option Bale) (d : Nat) : Bool :=
  match chamber with
  | some b => decide (b.stage = .forming) && decide (b.recipe.targetDiameter ≤ d)
  | none => false

/-- CU with the computed code and the net-catch timer as given, the DV code as R73 and BALE_FULL as R69 say for the
chamber record given; the lockout and the PDM stage as they were. -/
def ChamberBecomes (chamber : Option Bale) (code : Nat) (timer : Timer) (s t : State) : Prop :=
  t.cu = { s.cu with
    computedCode := code, netCatchTimer := timer,
    dvCode := driveCode t.mi.stop.filtered s.cu.lockout chamber.isSome code,
    baleFull := fullFor chamber s.mf.d.value }

/-- The code computed for a record from a diameter (R70, R71). -/
def codeFor (k : Constants) (r : Recipe) (diameter : Nat) : Nat := valveCode k (setPressure r diameter)

/-- A record as its grant leaves it: EJECTING, `ejected` stamped, `eject_requested` clear (R92). -/
def Bale.granted (b : Bale) (clock : Nat) : Bale :=
  { b with stage := .ejecting, ejected := some clock, ejectRequested := false }

/-- HU after a grant to the record `q` (R92). -/
def HandoverUnit.granted (h : HandoverUnit) (q : Nat) (k : Constants) : HandoverUnit :=
  { h with reservation := some q, ejectSlot := none, transferTimer := .running (k.transferTimeout * 1000) }

/-- A waiting request that only the reservation, the hold or STOP can hold back: the slot names the NETTED chamber
record (R93). -/
def State.WaitingRequest (s : State) : Prop :=
  ∃ b, s.recordIn .chamber = some b ∧ b.stage = .netted ∧ s.hu.ejectSlot = some b.seq

/-- What a closure makes of a record (R22 step 1). -/
def Bale.closedBy (b : Bale) (reason : CloseReason) (clock : Nat) : Bale :=
  { b with closed := some clock, closeReason := some reason }

/-- How an offered report reaches the queue (R157): the tail, the holding slot, or the place of the held report. -/
def Arrives (r : Report) (q q' : ReportQueue) : Prop :=
  (q.queue.length < 16 → q' = { q with queue := q.queue ++ [r] }) ∧
  (16 ≤ q.queue.length → q.holding = none → q' = { q with holding := some r }) ∧
  (16 ≤ q.queue.length → q.holding.isSome = true →
    q' = { q with holding := some r, lost := stepSaturating q.lost 65535, overrun := true })

/-- Reports offered in turn, each by R157 (R164). -/
def OffersReach : List Report → ReportQueue → ReportQueue → Prop
  | [], q, q' => q' = q
  | r :: rs, q, q' => ∃ m, Arrives r q m ∧ OffersReach rs m q'

/-- A record as it leaves the table at a fall of TABLE_LOADED: UNCOMMANDED_TIP on a WRAPPED one (R127). -/
def Bale.fallen (b : Bale) : Bale :=
  if b.stage = .wrapped then { b with flags := { b.flags with uncommandedTip := true } } else b

/-- The record OPEN BALE creates (Table 1-1, R13, R17): FORMING where the chamber is empty and the tailgate closed, else
GATHERING. -/
def openedBale (s : State) (slot : Nat) (r : Recipe) : Bale :=
  let forming : Bool := (s.recordIn .chamber).isNone && s.mi.tailgate.filtered
  { seq := s.bt.seqCounter, recipeIndex := slot, recipe := r,
    stage := if forming then .forming else .gathering, opened := s.bt.runClock,
    formed := if forming then some s.bt.runClock else none, netStarted := none, netted := none, ejected := none,
    arrived := none, wrapped := none, closed := none,
    flags := ⟨false, false, false, false, false, false, false, false, false⟩,
    moistureSum := 0, moistureCount := 0, moistureMean := none, peakPressure := 0, netAttempts := 0, net := none,
    netTurns := none, ejectRequested := false, wrap := none, closeReason := none }

/-- The counter's next value, 65535 being followed by 1 (R11). -/
def nextSeq (c : Nat) : Nat := if c < 65535 then c + 1 else 1

/-- The four net fields of an attempt at a diameter (R77, R78). -/
def netFieldsFor (r : Recipe) (d : Nat) : NetFields :=
  { diameter := d, circ := (d * 31416 + 500) / 1000, target := r.nt * ((d * 31416 + 500) / 1000) / 10 + r.tail * 10,
    metered := 0 }

/-- The layer target of R106: the band of the mean, an unknown mean counting as wet. -/
def layersFor (b : Bale) : Nat :=
  match b.moistureMean with
  | some m => if m ≤ b.recipe.m1 then b.recipe.l1 else if m ≤ b.recipe.m2 then b.recipe.l2 else b.recipe.l3
  | none => b.recipe.l3

/-! ### Outputs, silence, lays and revolutions -/

/-- In how many of the next output slots DVOUT is high (R74). -/
def highSlots : Nat → State → Nat
  | 0, _ => 0
  | n + 1, s =>
    match exec .pdmOutputSlot s with
    | .next t => t.cu.dvout.toNat + highSlots n t
    | _ => 0

/-- The rows that reach no block while nRST is asserted: requests, the lines of ports A and B, pulses, conversions, zero-due
expiries and auto-zero ends (R42, R47, R202). Port C's transactions are said apart: LC answers them with no
acknowledgement. -/
def silentUnderReset : Instr → Bool
  | .tablePulse => true
  | .tableIndex => true
  | .baleRoll => true
  | .netRoll => true
  | .filmPulse _ => true
  | .conversionCompletion _ _ => true
  | .zeroDueExpiry _ => true
  | .autoZeroCompletion _ => true
  | .addressCharacter _ _ _ => true
  | .dataCharacter _ _ _ => true
  | .interCharacterTimeout _ => true
  | .responseTransmissionCompletion _ => true
  | .writeTransaction _ => false
  | .readTransaction _ => false
  | i => (requestRow i).isSome

/-- Whether the next silence step breaks a dispenser: RUNNING, its counter one short of a quarter revolution (R135). -/
def State.breaksNext (s : State) (k : Dispenser) : Bool :=
  decide ((s.ds.film.get k).state = .running) &&
    decide ((s.ds.film.get k).silence + 1 = s.rs.constants.tablePulses / 4)

/-- A break appended to the list while it has fewer than six entries, and counted (R137). -/
def WrapSection.withBreak (w : WrapSection) (k : Dispenser) (clock : Nat) : WrapSection :=
  { w with
    breaks := if w.breaks.length < 6 then
        w.breaks ++ [{ dispenser := k, revolutions := w.revolutions, surfacePos := w.surfacePos, time := clock }]
      else w.breaks
    breakCount := stepSaturating w.breakCount 255 }

/-- The FILM setting of a dispenser for port B (R135, R150). -/
def filmSetting (k : Dispenser) (q : Nat) : Setting := ⟨.b, .film, dispenserInst k, q⟩

/-- The silence step of a TABLE_PULSE while the record `b` is WRAPPING with section `w` (R135, R137). -/
def SilenceStep (older : List Bale) (b : Bale) (w : WrapSection) (younger : List Bale) (s u : State) : Prop :=
  let w1 := if s.breaksNext .one then w.withBreak .one s.bt.runClock else w
  let w2 := if s.breaksNext .two then w1.withBreak .two s.bt.runClock else w1
  (∀ k, u.ds.film.get k = { s.ds.film.get k with
    silence := stepSaturating (s.ds.film.get k).silence (s.rs.constants.tablePulses / 4)
    state := if s.breaksNext k then .broken else (s.ds.film.get k).state }) ∧
  (u.ds.netStock = s.ds.netStock ∧ u.ds.netKnown = s.ds.netKnown) ∧
  BalesBecome (older ++ { b with wrap := some w2 } :: younger) s u ∧
  Hands ((if s.breaksNext .one then [filmSetting .one b.seq] else []) ++
    (if s.breaksNext .two then [filmSetting .two b.seq] else [])) s u ∧
  OnlyChanges [.ds, .bt, .arbiter .b] s u

/-- The map after a lay (R114, R115, R116): one layer more, up to 31, on each sector whose centre lies under the band. -/
def layersAfter (k : Constants) (r : Recipe) (w : WrapSection) : List Nat :=
  w.layers.mapIdx (fun sector n =>
    if (((2 * sector + 1) * w.circ / 128 : Nat) - (w.surfacePos : Int)) % (w.circ : Int) <
        (min (k.filmWidth * (1000 - r.neck) / 100) (w.circ - 1) : Nat) then stepSaturating n 31 else n)

/-- A film total with a charge added (R142); past the top of Table 6-1's range a free value (log entry 26). -/
def filmTotal (before taken : Nat) : Nat :=
  if before + taken ≤ 4294967295 then before + taken else (Config.freeFilm (before + taken)).toNat

/-- A lay position of dispenser `k` (R113, R117, R119, R120, R142, R143). Not counted, it changes nothing. Counted, it
covers sectors, steps the lay count, charges film to the bale and to a known stock, completes the wrap where every
sector has reached the target, and leaves a dispenser whose known stock it took whole EMPTY. -/
def LayPosition (k : Dispenser) (s t : State) : Prop :=
  (s.wrapping = none ∨ (s.ds.film.get k).state ≠ .running ∨ s.mi.stop.filtered = true → OnlyChanges [.mi] s t) ∧
  ∀ (older younger : List Bale) (b : Bale) (w : WrapSection) (n : NetFields),
    s.HoldsIn .table older b younger → b.stage = .wrapping → b.wrap = some w → b.net = some n → w.layers ≠ [] →
    (s.ds.film.get k).state = .running → s.mi.stop.filtered = false →
    let d := s.ds.film.get k
    let numerator := 2 * (s.rs.constants.baleWidth + n.diameter) * 100 + d.residue
    let charge := numerator / (100 + b.recipe.s)
    let short := d.known && decide (d.stock ≤ charge)
    let taken := if short then d.stock else charge
    let layers := layersAfter s.rs.constants b.recipe w
    let complete := layers.all (fun x => decide (w.layerTarget ≤ x))
    BalesBecome (older ++
      { b with
        stage := if complete then .wrapped else .wrapping
        wrapped := if complete then some s.bt.runClock else b.wrapped
        flags := { b.flags with filmShort := b.flags.filmShort || short }
        wrap := some { w with
          layers := layers
          lays1 := if k = .one then stepSaturating w.lays1 65535 else w.lays1
          lays2 := if k = .two then stepSaturating w.lays2 65535 else w.lays2
          film1 := if k = .one then filmTotal w.film1 taken else w.film1
          film2 := if k = .two then filmTotal w.film2 taken else w.film2 } } :: younger) s t ∧
    t.ds.film.get k = { d with
      residue := numerator % (100 + b.recipe.s)
      stock := if d.known then d.stock - taken else d.stock
      state := if short then .empty else .running } ∧
    (∀ j, j ≠ k → t.ds.film.get j = s.ds.film.get j) ∧
    (t.ds.netStock = s.ds.netStock ∧ t.ds.netKnown = s.ds.netKnown) ∧
    Hands ((if complete then stageSettings .table b.seq ++ [⟨.b, .wrapDone, 0, b.seq⟩] else []) ++
      (if short then [filmSetting k b.seq] else [])) s t ∧
    OnlyChanges (.bt :: .ds :: .mi :: arbiters) s t

/-- The revolution part of a TABLE_INDEX on the table record as its lay position left it (R121, R122): a revolution, and
the cap where the record is still WRAPPING at `max_revs`. -/
def RevolutionStep (u t : State) : Prop :=
  ∀ (older younger : List Bale) (b : Bale) (w : WrapSection), u.HoldsIn .table older b younger → b.wrap = some w →
    (b.stage = .wrapping → b.recipe.maxRevs ≤ stepSaturating w.revolutions 255 →
      BalesBecome (older ++
        { b with
          stage := .wrapped, wrapped := some u.bt.runClock, flags := { b.flags with underwrapped := true }
          wrap := some { w with revolutions := stepSaturating w.revolutions 255 } } :: younger) u t ∧
      Hands (stageSettings .table b.seq ++ [⟨.b, .wrapDone, 2, b.seq⟩]) u t ∧
      OnlyChanges (.bt :: .mi :: arbiters) u t) ∧
    (¬ (b.stage = .wrapping ∧ b.recipe.maxRevs ≤ stepSaturating w.revolutions 255) →
      BalesBecome (older ++
        { b with wrap := some { w with revolutions := stepSaturating w.revolutions 255 } } :: younger) u t ∧
      OnlyChanges [.bt, .mi] u t)

/-- The scaling of R31: the line through the pair, the division truncated toward zero, clamped to the range. -/
def scaled (k : Calibration) (top : Nat) (raw : Int) : Nat :=
  (max 0 (min (top : Int)
    ((k.eng0 : Int) + Int.tdiv ((raw - k.raw0) * ((k.eng1 : Int) - k.eng0)) (k.raw1 - k.raw0)))).toNat

/-- A port leaves a hold set (R35, R38, R42): nothing where it was not in it; otherwise it is removed, and an automatic
cycle begins where that empties the set with a debt of 1 or more and no cycle running. -/
def Releases (p : Port) (c c' : ChannelRecord) : Prop :=
  (c.hold.has p = false → c' = c) ∧
  (c.hold.has p = true →
    c'.hold.has p = false ∧ (∀ q, q ≠ p → c'.hold.has q = c.hold.has q) ∧
    ((∀ q, q ≠ p → c.hold.has q = false) → 1 ≤ c.debt → c.zeroing = false →
      c' = { c with hold := ⟨false, false, false⟩, zeroing := true, stale := true, convTimer := .stopped }) ∧
    (¬ ((∀ q, q ≠ p → c.hold.has q = false) ∧ 1 ≤ c.debt ∧ c.zeroing = false) → c' = { c with hold := c'.hold }))

/-- What HOLD ZERO and RELEASE ZERO return of a channel (R38, Table 10-3). -/
def zeroItems (c : ChannelRecord) : List Byte :=
  signed1 c.debt ++ byte1 (c.hold.a.toNat + 2 * c.hold.b.toNat + 4 * c.hold.c.toNat) ++ byte1 c.zeroing.toNat

/-- The other dispenser and the net stock are as they were. -/
def StockFrame (k : Dispenser) (s t : State) : Prop :=
  (∀ j, j ≠ k → t.ds.film.get j = s.ds.film.get j) ∧ t.ds.netStock = s.ds.netStock ∧ t.ds.netKnown = s.ds.netKnown

/-! ### The wire -/

/-- An error is counted on port A or B (R197): its counter steps, saturating at 255, the error latch is set, the LINK
setting goes to the port's own arbiter; the rest of the link unit but the receiver is as it was. -/
def CountsError (l : LinePort) (e : LineError) (s t : State) : Prop :=
  (t.line l).counter e = stepSaturating ((s.line l).counter e) 255 ∧
  (∀ e', e' ≠ e → (t.line l).counter e' = (s.line l).counter e') ∧ (t.line l).errorLatch = true ∧
  (t.line l).tx = (s.line l).tx ∧ (t.line l).held = (s.line l).held ∧ (t.line l).image = (s.line l).image ∧
  (t.line l).frames = (s.line l).frames ∧
  Hands [⟨linePort l, .link, if e = .pendingLost then 1 else 0, (t.line l).counter e⟩] s t ∧
  OnlyChanges [.link (linePort l), .arbiter (linePort l)] s t

/-- Only the receiver of the link unit has changed. -/
def LineFrame (l : LinePort) (s t : State) : Prop := t.line l = { s.line l with rx := (t.line l).rx }

/-- A partial frame is abandoned (R184): counted where it held data characters, discarded without a count otherwise. -/
def Abandons (l : LinePort) (s t : State) : Prop :=
  (∀ c cs damaged, (s.line l).rx = .listening (c :: cs) damaged → CountsError l .abandoned s t) ∧
  ((s.line l).rx = .dozing ∨ (∃ damaged, (s.line l).rx = .listening [] damaged) →
    LineFrame l s t ∧ OnlyChanges [.link (linePort l)] s t)

/-! ### Conditions, images, plans, recipes and constants -/

/-- The set of low stocks (R149): 1 for the net roll, 2 and 4 for the film rolls, known stocks below their thresholds. -/
def lowSet (s : State) : Nat :=
  (s.ds.netKnown && decide (s.ds.netStock < s.rs.constants.netLow)).toNat +
    2 * (s.ds.film.one.known && decide (s.ds.film.one.stock < s.rs.constants.filmLow)).toNat +
    4 * (s.ds.film.two.known && decide (s.ds.film.two.stock < s.rs.constants.filmLow)).toNat

/-- The detail of a condition while it is active for a port (R68, R69, R149, R159, R168, Table 9-1). -/
def activeCondition (s : State) (p : Port) (src : Source) : Option Nat :=
  if src = .baleFull ∧ s.cu.baleFull = true then some (((s.recordIn .chamber).map Bale.seq).getD 0)
  else if src = .overpressure ∧ s.cu.lockout = true then some (((s.recordIn .chamber).map Bale.seq).getD 0)
  else if src = .stockLow ∧ lowSet s ≠ 0 then some (lowSet s)
  else if src = .reports ∧ (s.na.get p).plan.trigger ≤ s.rq.queue.length then some s.rq.queue.length
  else if src = .stop ∧ s.mi.stop.filtered = true then some 0
  else none

/-- The default priority and the default mask of every source (Table 9-3). REPORTS has no stored priority. -/
def planRows : List (Source × Nat × List Port) :=
  [(.stop, 240, [.a, .b, .c]), (.overpressure, 224, [.a]), (.film, 200, [.b]), (.transfer, 192, [.a, .b]),
   (.netMiss, 184, [.a]), (.wrapDone, 176, [.b]), (.netDone, 168, [.a]), (.ejectGrant, 160, [.a]),
   (.baleFull, 152, [.a]), (.tableUnexpected, 144, [.b]), (.zeroForced, 96, [.a, .b, .c]),
   (.stockLow, 80, [.a, .b, .c]), (.link, 64, [.a, .b, .c]), (.stage, 32, [.a, .b, .c]), (.reports, 0, [.c])]

/-- A port's plan is the default plan of R169. -/
def IsDefaultPlan (p : Port) (plan : NoticePlan) : Prop :=
  plan.threshold = 0 ∧ plan.reportsBase = 16 ∧ plan.trigger = 1 ∧
  ∀ row ∈ planRows, plan.mask.get row.1 = decide (p ∈ row.2.2) ∧
    (row.1 ≠ .reports → plan.priorities.get row.1 = row.2.1)

/-- The attention line of a port follows R171. -/
def State.LineFollows (s : State) (p : Port) : Prop :=
  (s.na.get p).attention = true ↔ ∃ n ∈ s.bidders p, (s.na.get p).plan.threshold < n.priority

/-- A link unit of port A or B with nothing received, sent, waiting or counted (R202). -/
def LineLink.Cleared (x : LineLink) : Prop :=
  x = { rx := .dozing, tx := none, held := none, image := none, frames := 0, abandoned := 0, framing := 0, check := 0,
        pendingLost := 0, errorLatch := false }

/-- LC with nothing to read and nothing counted (R202). What it last put on the wires is not the part's state (log entry
16). -/
def TargetLink.Cleared (x : TargetLink) : Prop :=
  x = { buffer := none, readPos := 0, acks := x.acks, sda := x.sda, image := none, frames := 0, length := 0, check := 0,
        responseLost := 0, errorLatch := false }

/-- A command takes a transfer image on its port and answers with its first chunk (R194). -/
def SendsImage (p : Port) (c : Command) (bytes : List Byte) (s t : State) : Prop :=
  t.imageOf p = some ⟨bytes, 0⟩ ∧
  Answered p c (if 47 < bytes.length then .more else .ok) (0 :: bytes.take 47) t ∧ OnlyChanges (takeBlocks p s) s t

/-- An acknowledgement taken on port `p` in the state `u`, which the taking of the request in `s` left (R174): the set
place is cleared, and nothing else of any arbiter changes. -/
def Acknowledges (p : Port) (c : Command) (src : Source) (i : Fin 4) (u s t : State) : Prop :=
  (∀ q src' i', t.latch q src' i' =
    if q = p ∧ src' = src ∧ i' = i ∧ src.isLatch = true then none else u.latch q src' i') ∧
  (∀ q, (t.na.get q).plan = (s.na.get q).plan ∧ (t.na.get q).current = (s.na.get q).current) ∧
  Answered p c .ok (flag1 (src.isLatch && (u.latch p src i).isSome) ++ flag1 (t.raised p)) t ∧
  OnlyChanges (.arbiter p :: takeBlocks p s) s t

/-- The smallest listed number not below a value, and `top` for a value above them all (R60, R177). -/
def roundedUp (listed : List Nat) (top n : Nat) : Nat := (listed.find? (fun x => decide (n ≤ x))).getD top

/-- The recipe field with this mark number, 1 to 15 in the order of Table 3-1. -/
def recipeField (r : Recipe) : Nat → Nat
  | 1 => r.targetDiameter
  | 2 => r.dc
  | 3 => r.pc
  | 4 => r.ps
  | 5 => r.r
  | 6 => r.nt
  | 7 => r.tail
  | 8 => r.m1
  | 9 => r.m2
  | 10 => r.l1
  | 11 => r.l2
  | 12 => r.l3
  | 13 => r.neck
  | 14 => r.s
  | 15 => r.maxRevs
  | _ => 0

/-- The ranges of Table 3-1, by mark number. -/
def recipeRange : Nat → Nat × Nat
  | 1 => (900, 1800)
  | 2 => (0, 1800)
  | 3 => (0, 25000)
  | 4 => (0, 25000)
  | 5 => (1, 900)
  | 6 => (15, 60)
  | 7 => (0, 2000)
  | 8 => (0, 800)
  | 9 => (0, 800)
  | 10 => (0, 12)
  | 11 => (0, 12)
  | 12 => (0, 12)
  | 13 => (0, 400)
  | 14 => (50, 90)
  | 15 => (4, 60)
  | _ => (0, 0)

/-- Step 2 of R55: `a` is `start` with each altered field at its written value, clamped to its range. -/
def AltersRecipe (start w : Recipe) (alter : Nat) (a : Recipe) : Prop :=
  ∀ k, 1 ≤ k → k ≤ 15 → recipeField a k =
    if alter.testBit k then max (recipeRange k).1 (min (recipeRange k).2 (recipeField w k)) else recipeField start k

/-- The group-3 constant with this mark number, 0 to 12 in the order of Table 3-2. -/
def constantField (c : Constants) : Nat → Int
  | 0 => c.baleWidth
  | 1 => c.filmWidth
  | 2 => c.rollStep
  | 3 => c.netStep
  | 4 => c.tablePulses
  | 5 => c.transferTimeout
  | 6 => c.netCatchTimeout
  | 7 => c.opLimit
  | 8 => c.opHyst
  | 9 => c.dvOffset
  | 10 => c.dvGain
  | 11 => c.netLow
  | 12 => c.filmLow
  | _ => 0

/-- The ranges of Table 3-2, by mark number. -/
def constantRange : Nat → Int × Int
  | 0 => (1000, 1600)
  | 1 => (250, 1000)
  | 2 => (1, 500)
  | 3 => (1, 500)
  | 4 => (64, 1024)
  | 5 => (1, 30)
  | 6 => (5, 100)
  | 7 => (1000, 25000)
  | 8 => (0, 5000)
  | 9 => (-32768, 32767)
  | 10 => (0, 65535)
  | 11 => (0, 40000000)
  | 12 => (0, 3000000)
  | _ => (0, 0)

/-- R60 on group 3 before its last step: each altered constant at its written value, clamped to its range. -/
def AltersConstants (old w : Constants) (alter : Nat) (a : Constants) : Prop :=
  ∀ k, k ≤ 12 → constantField a k =
    if alter.testBit k then max (constantRange k).1 (min (constantRange k).2 (constantField w k))
    else constantField old k

/-- A raw code carried by SET MACHINE, -32768 replaced by -32767 (R60). -/
def rawOf (pl : List Byte) (at_ : Nat) : Int := max (-32767) (int2 pl at_)

/-! ### Invariants -/

/-- Zero debts (R34). A running cycle never takes a debt below -8, because none starts there by PREZERO. -/
def ChannelRecord.DebtInv (c : ChannelRecord) : Prop :=
  -8 ≤ c.debt ∧ c.debt ≤ 8 ∧ (c.zeroing = true → -7 ≤ c.debt)

/-- The debts of all channels (R34). -/
def DebtInv (s : State) : Prop := ∀ ch, (s.mf.get ch).DebtInv

/-- The density drive is safe (R73) and BALE_FULL is true to its cause (R69): the DV code is 0 under STOP, under the
lockout and with no chamber record, and the computed code otherwise. No record is live while nRST is asserted (R26). -/
def DriveInv (s : State) : Prop :=
  s.cu.dvCode = s.dvTarget ∧ s.cu.baleFull = s.fullTarget ∧ (s.nrstAsserted = true → s.bt.bales = [])

/-- The live records stand in strictly falling zones, so each zone holds at most one (R8, R9). -/
def ZonesFall (s : State) : Prop :=
  s.bt.bales.Pairwise (fun x y => y.stage.zone.number < x.stage.zone.number)

/-- The reservation is held exactly for the record on the table, and the slot names exactly the NETTED record with
`eject_requested` (R88, R89). No record is live while nRST is asserted (R26). -/
def HandoverInv (s : State) : Prop :=
  ZonesFall s ∧ (s.nrstAsserted = true → s.bt.bales = []) ∧
  s.hu.reservation = (s.recordIn .table).map Bale.seq ∧
  (∀ q, s.hu.ejectSlot = some q →
    ∃ b, s.recordIn .chamber = some b ∧ b.seq = q ∧ b.stage = .netted ∧ b.ejectRequested = true) ∧
  ∀ b ∈ s.bt.bales, b.ejectRequested = true → b.stage = .netted ∧ s.hu.ejectSlot = some b.seq

/-- The two STOP-suspended timers: one that is not STOPPED belongs to a NETTING, or an EJECTING, record, and it is
SUSPENDED exactly while STOP is asserted (R81, R96). -/
def TimerInv (s : State) : Prop :=
  (s.cu.netCatchTimer ≠ .stopped → ∃ b, s.recordIn .chamber = some b ∧ b.stage = .netting) ∧
  (s.hu.transferTimer ≠ .stopped → ∃ b, s.recordIn .table = some b ∧ b.stage = .ejecting) ∧
  (s.cu.netCatchTimer.isRunning = true ∨ s.hu.transferTimer.isRunning = true → s.mi.stop.filtered = false) ∧
  (s.cu.netCatchTimer = .suspended ∨ s.hu.transferTimer = .suspended → s.mi.stop.filtered = true)

/-- A RUNNING dispenser never has a known film stock of 0 (R133), and its stock stays in range (Table 7-1). -/
def DispenserRecord.StockInv (d : DispenserRecord) : Prop :=
  (d.state = .running ∧ d.known = true → d.stock ≠ 0) ∧ d.stock ≤ 3000000

/-- The stocks of DS (R133, Table 7-1), and the silence counters within a quarter revolution (R132). -/
def StockInv (s : State) : Prop :=
  s.ds.netStock ≤ 40000000 ∧
  ∀ k, (s.ds.film.get k).StockInv ∧ (s.ds.film.get k).silence ≤ s.rs.constants.tablePulses / 4

/-- The report queue: at most sixteen places, the holding slot occupied only while they are full (R154). -/
def QueueInv (s : State) : Prop :=
  s.rq.queue.length ≤ 16 ∧ (s.rq.holding.isSome = true → s.rq.queue.length = 16) ∧ s.rq.lost ≤ 65535

/-- A recipe within Table 3-1, with M1 not above M2 (R63). -/
def Recipe.Legal (r : Recipe) : Prop :=
  (900 ≤ r.targetDiameter ∧ r.targetDiameter ≤ 1800) ∧ r.dc ≤ 1800 ∧ r.pc ≤ 25000 ∧ r.ps ≤ 25000 ∧
  (1 ≤ r.r ∧ r.r ≤ 900) ∧ (15 ≤ r.nt ∧ r.nt ≤ 60) ∧ r.tail ≤ 2000 ∧ r.m1 ≤ r.m2 ∧ r.m2 ≤ 800 ∧
  r.l1 ≤ 12 ∧ r.l2 ≤ 12 ∧ r.l3 ≤ 12 ∧ r.neck ≤ 400 ∧ (50 ≤ r.s ∧ r.s ≤ 90) ∧ (4 ≤ r.maxRevs ∧ r.maxRevs ≤ 60)

/-- The group-3 constants within Table 3-2. -/
def Constants.Legal (k : Constants) : Prop :=
  (1000 ≤ k.baleWidth ∧ k.baleWidth ≤ 1600) ∧ (250 ≤ k.filmWidth ∧ k.filmWidth ≤ 1000) ∧
  (1 ≤ k.rollStep ∧ k.rollStep ≤ 500) ∧ (1 ≤ k.netStep ∧ k.netStep ≤ 500) ∧
  (64 ≤ k.tablePulses ∧ k.tablePulses ≤ 1024) ∧ (1 ≤ k.transferTimeout ∧ k.transferTimeout ≤ 30) ∧
  (5 ≤ k.netCatchTimeout ∧ k.netCatchTimeout ≤ 100) ∧ (1000 ≤ k.opLimit ∧ k.opLimit ≤ 25000) ∧
  (k.opHyst ≤ 5000 ∧ k.opHyst < k.opLimit) ∧ (-32768 ≤ k.dvOffset ∧ k.dvOffset ≤ 32767) ∧ k.dvGain ≤ 65535 ∧
  k.netLow ≤ 40000000 ∧ k.filmLow ≤ 3000000

/-- A channel's constants within section 3.3: a listed period, two different raw codes, points within the ranges. -/
def ChannelConstants.Legal (top : Nat) (k : ChannelConstants) : Prop :=
  k.period ∈ [10, 20, 50, 100, 200] ∧ k.pair.raw0 ≠ k.pair.raw1 ∧
  (-32767 ≤ k.pair.raw0 ∧ k.pair.raw0 ≤ 32767) ∧ (-32767 ≤ k.pair.raw1 ∧ k.pair.raw1 ≤ 32767) ∧
  k.pair.eng0 ≤ top ∧ k.pair.eng1 ≤ top

/-- RS and every snapshot are in range (R53, R58, R63), and the table angle is below Tp (R48). -/
def RecipeInv (s : State) : Prop :=
  s.rs.slots.length = 8 ∧ (∀ x ∈ s.rs.slots, x.recipe.Legal) ∧ (∀ b ∈ s.bt.bales, b.recipe.Legal) ∧
  s.rs.constants.Legal ∧ (∀ ch, (s.rs.chan.get ch).Legal (channelTop ch)) ∧ s.mi.angle < s.rs.constants.tablePulses

/-- Two live records never share a `seq`, and the counter holds a value no live record carries (R11). -/
def SeqInv (s : State) : Prop :=
  (s.bt.bales.map Bale.seq).Nodup ∧ s.bt.seqCounter ∉ s.bt.bales.map Bale.seq ∧
  (1 ≤ s.bt.seqCounter ∧ s.bt.seqCounter ≤ 65535) ∧ ∀ b ∈ s.bt.bales, 1 ≤ b.seq ∧ b.seq ≤ 65535

/-- A wrap section with every field in the range of Table 6-1. -/
def WrapSection.Legal (w : WrapSection) : Prop :=
  w.layers.length = 64 ∧ (∀ n ∈ w.layers, n ≤ 31) ∧ (28274 ≤ w.circ ∧ w.circ ≤ 56549) ∧ w.surfacePos < w.circ ∧
  (1 ≤ w.layerTarget ∧ w.layerTarget ≤ 12) ∧ w.breaks.length ≤ 6 ∧ w.breaks.length ≤ w.breakCount ∧
  w.breakCount ≤ 255 ∧ w.revolutions ≤ 255 ∧ w.lays1 ≤ 65535 ∧ w.lays2 ≤ 65535 ∧
  w.film1 ≤ 4294967295 ∧ w.film2 ≤ 4294967295

/-- Whether a stage is one a record reaches only after NET START (Table 1-3). -/
def Stage.netStarted : Stage → Bool
  | .gathering => false
  | .forming => false
  | _ => true

/-- Every wrap section on the table is in range (Table 6-1), and a record that reached NETTING has the net fields, with
the diameter clamped (R6, R77). -/
def WrapInv (s : State) : Prop :=
  ∀ b ∈ s.bt.bales, (∀ w, b.wrap = some w → w.Legal) ∧
    (∀ n, b.net = some n → 900 ≤ n.diameter ∧ n.diameter ≤ 1800) ∧ (b.stage.netStarted = true → b.net.isSome = true)

/-- Each attention line is asserted exactly when a bidding notice has a priority above the threshold, and none while
nRST is asserted (R171). -/
def AttentionInv (s : State) : Prop :=
  ∀ p, (s.na.get p).attention = true ↔
    s.nrstAsserted = false ∧ ∃ n ∈ s.bidders p, (s.na.get p).plan.threshold < n.priority

end Sys2Proof.Machine
end

