-- ==== Sys2Proof/Certificates/Slice0/Obligations.lean ====
section
/-! DEFINITION. The statements for the provers, in the order of spec/'s chapters: the machine as a whole, resets, inputs,
channels, pulses, timers, the wire, the requests, and the invariants every step keeps. -/

open Sys2Proof Sys2Proof.Machine

/-! ### The machine as a whole -/

/-- The step takes the command at the front of the queue and runs it with the queue's rest; on an empty queue the block
idles. The model's choice: log entry 1. -/
def Obligations.StepRunsTheFrontCommand : Prop :=
  (∀ (c : Instr) (rest : List Instr) (s : State), step { s with pending := c :: rest } = exec c { s with pending := rest }) ∧
  ∀ s : State, s.pending = [] → step s = .next s

/-- No command stops the part and none touches the queue of steps that wait (95_what_each_step_holds.md). That it holds in
every state is the model's choice where no run leads there (log entry 17) and for operands nothing can send (log entry
18); the queue is the model's own (log entry 1). -/
def Obligations.EveryCommandCompletes : Prop := ∀ i s, Runs i s (fun t => t.pending = s.pending)

/-- R12 and R74: what one tick of the run clock and one output slot do, whatever else holds, with their frames; and over
65536 consecutive slots with an unchanged code, DVOUT is high in exactly as many slots as the code. -/
def Obligations.ClockTickAndOutputSlots : Prop :=
  (∀ s : State,
     (s.bt.runClock ≤ 4294967295 →
       Runs .runClockTick s (fun t =>
         t.bt = { s.bt with runClock := if s.bt.runClock = 4294967295 then 0 else s.bt.runClock + 1 } ∧
         OnlyChanges [.bt] s t ∧ t.na = s.na)) ∧
     Runs .pdmOutputSlot s (fun t =>
       (65536 ≤ s.cu.pdmAcc + s.cu.dvCode →
         t.cu = { s.cu with dvout := true, pdmAcc := s.cu.pdmAcc + s.cu.dvCode - 65536 }) ∧
       (s.cu.pdmAcc + s.cu.dvCode < 65536 →
         t.cu = { s.cu with dvout := false, pdmAcc := s.cu.pdmAcc + s.cu.dvCode }) ∧
       OnlyChanges [.cu] s t ∧ t.na = s.na)) ∧
  (∀ s : State, s.cu.dvCode ≤ 65535 → s.cu.pdmAcc ≤ 65535 → highSlots 65536 s = s.cu.dvCode)

/-! ### Resets -/

/-- Power-on reset (R27, R42, R44, R53, R58, Table 4-1, R86, R102, R132, R152, R154, R165, R169,
R182, R202): every counter of every link unit is 0, and the plan is that of Table 9-3. The level pins,
the straps as sampled, the queue of steps and the counter of free values come from outside (log entry 7). -/
def Obligations.PowerOnReset : Prop :=
  ∀ (straps : Straps) (s : State),
    Runs (.powerOnReset straps) s (fun t =>
      t.nrstAsserted = false ∧ t.straps = straps ∧
      t.bt.bales = [] ∧ t.bt.seqCounter = 1 ∧ t.bt.runClock = 0 ∧
      (∀ ch, t.mf.get ch =
        { raw := 0, value := 0, stale := true, saturated := false, debt := 0, hold := ⟨false, false, false⟩,
          zeroing := false, convTimer := .running (t.rs.chan.get ch).period, zeroDueTimer := .running 2000 }) ∧
      (t.rs.chan.p.period = 20 ∧ t.rs.chan.d.period = 50 ∧ t.rs.chan.m.period = 100) ∧
      t.rs.slots.map (·.valid) = [true, false, false, false, false, false, false, false] ∧
      (∀ x ∈ t.rs.slots, x.recipe = ⟨1250, 800, 8000, 16000, 300, 25, 300, 450, 600, 4, 6, 8, 200, 70, 40⟩) ∧
      t.rs.constants = ⟨1200, 750, 100, 500, 256, 10, 30, 22000, 1000, 2000, 1200, 2000000, 150000⟩ ∧
      (t.rs.chan.p.pair = ⟨0, 0, 30000, 25000⟩ ∧ t.rs.chan.d.pair = ⟨0, 0, 32000, 2000⟩ ∧
        t.rs.chan.m.pair = ⟨0, 0, 32000, 800⟩) ∧
      (t.mi.stop.filtered = true ∧ t.mi.tailgate.filtered = false ∧ t.mi.tableLoaded.filtered = false ∧
        t.mi.angle = 0) ∧
      (∀ i, (t.mi.level i).pin = (s.mi.level i).pin ∧
        (t.mi.level i).timer = if (t.mi.level i).pin = (t.mi.level i).filtered then .stopped else .running 20) ∧
      t.cu = { computedCode := 0, dvCode := 0, pdmAcc := 0, dvout := false, lockout := false,
               netCatchTimer := .stopped, baleFull := false } ∧
      t.hu = { reservation := none, ejectSlot := none, tableHold := false, transferTimer := .stopped } ∧
      (∀ k, t.ds.film.get k = { state := .out, silence := 0, residue := 0, stock := 0, known := false }) ∧
      (t.ds.netStock = 0 ∧ t.ds.netKnown = false) ∧
      t.rq = { queue := [], holding := none, lost := 0, overrun := false } ∧
      (∀ p, (∀ src i, t.latch p src i = none) ∧ (t.na.get p).current = none ∧ IsDefaultPlan p (t.na.get p).plan ∧
        (t.na.get p).attention = true ∧ t.LineFollows p) ∧
      (∀ l, (t.line l).Cleared ∧ t.sends l = []) ∧ t.lc.Cleared ∧
      OnlyChanges [.nrst, .straps, .bt, .mf, .mi, .rs, .cu, .hu, .ds, .rq, .arbiter .a, .arbiter .b, .arbiter .c,
        .link .a, .link .b, .link .c] s t)

/-- Pin reset. The assertion of nRST (R26, R42, R86, R102, R152, R164, R165, R169, R182, R202): every live record is
closed with RESET, oldest first, and offered to the queue with its other fields as they stood (log entry 11); then each
block takes its pin-reset values, the channel timers stopped (log entry 19), the link units cleared (log entry 13), the
lines deasserted. The release (R42, R51, R182, R202): straps sampled, both timers of every channel started, the link
units cleared with every counter 0, the lines by R171 again; released while not asserted, nothing (log entry 23). -/
def Obligations.PinReset : Prop :=
  (∀ s : State,
     Runs .pinResetAssertion s (fun t =>
       t.nrstAsserted = true ∧
       BalesBecome [] s t ∧
       OffersReach (s.bt.bales.map (fun b => b.closedBy .reset s.bt.runClock)) s.rq t.rq ∧
       (∀ ch, t.mf.get ch = { s.mf.get ch with
         stale := true, saturated := false, debt := 0, hold := ⟨false, false, false⟩, zeroing := false,
         convTimer := .stopped, zeroDueTimer := .stopped }) ∧
       t.cu = { computedCode := 0, dvCode := 0, pdmAcc := 0, dvout := false, lockout := false,
                netCatchTimer := .stopped, baleFull := false } ∧
       t.hu = { reservation := none, ejectSlot := none, tableHold := false, transferTimer := .stopped } ∧
       (∀ k, t.ds.film.get k = { s.ds.film.get k with state := .out, silence := 0, residue := 0 }) ∧
       (t.ds.netStock = s.ds.netStock ∧ t.ds.netKnown = s.ds.netKnown) ∧
       (∀ p, (∀ src i, t.latch p src i = none) ∧ (t.na.get p).current = none ∧
         IsDefaultPlan p (t.na.get p).plan ∧ (t.na.get p).attention = false) ∧
       (∀ l, (t.line l).Cleared ∧ t.sends l = []) ∧ t.lc.Cleared ∧
       OnlyChanges [.nrst, .bt, .mf, .cu, .hu, .ds, .rq, .arbiter .a, .arbiter .b, .arbiter .c, .link .a, .link .b,
         .link .c] s t)) ∧
  (∀ (straps : Straps) (s : State),
     Runs (.pinResetRelease straps) s (fun t =>
       (s.nrstAsserted = true →
         t.nrstAsserted = false ∧ t.straps = straps ∧
         (∀ ch, t.mf.get ch = { s.mf.get ch with
           convTimer := .running (s.rs.chan.get ch).period, zeroDueTimer := .running 2000 }) ∧
         (∀ l, (t.line l).Cleared ∧ t.sends l = []) ∧ t.lc.Cleared ∧ (∀ p, t.LineFollows p) ∧
         OnlyChanges [.nrst, .straps, .mf, .link .a, .link .b, .link .c] s t) ∧
       (s.nrstAsserted = false → OnlyChanges [] s t)))

/-- While nRST is asserted no request is taken, no character is received, no pulse reaches a consumer and no channel
completes or falls due (R42, R47, R202): the state is unchanged (log entry 4). In a transaction of port C, at whatever
address, LC acknowledges nothing, returns nothing and takes nothing (R202), which the model's own fields `acks` and `sda`
show (log entry 16). -/
def Obligations.NothingReachesThePartUnderReset : Prop :=
  (∀ (i : Instr) (s : State), s.nrstAsserted = true → silentUnderReset i = true →
     Runs i s (fun t => OnlyChanges [] s t)) ∧
  ∀ (write : WriteTransfer) (read : ReadTransfer) (s : State), s.nrstAsserted = true →
    Runs (.writeTransaction write) s (fun t =>
      t.lc = { s.lc with acks := [], sda := [] } ∧ OnlyChanges [.link .c] s t) ∧
    Runs (.readTransaction read) s (fun t =>
      t.lc = { s.lc with acks := [], sda := [] } ∧ OnlyChanges [.link .c] s t)

/-! ### Level inputs -/

/-- R43. A level pin comes to a level: at a difference from the filtered level the 20 ms timer starts, at a return it
stops; a pin already at the level changes nothing, so a running timer goes on (log entry 20). At the expiry of a running
timer the filtered level takes the pin level. TAILGATE's change is handed to no block (R46), and none is while nRST is
asserted (R44). A stopped timer does not expire (log entry 5). -/
def Obligations.LevelInputs : Prop :=
  (∀ (i : LevelInput) (v : Bool) (s : State),
     Runs (.levelPinChange i v) s (fun t =>
       (t.mi.level i).pin = v ∧ (t.mi.level i).filtered = (s.mi.level i).filtered ∧
       (v ≠ (s.mi.level i).pin → v ≠ (s.mi.level i).filtered → (t.mi.level i).timer = .running 20) ∧
       (v ≠ (s.mi.level i).pin → v = (s.mi.level i).filtered → (t.mi.level i).timer = .stopped) ∧
       (v = (s.mi.level i).pin → (t.mi.level i).timer = (s.mi.level i).timer) ∧
       (∀ j, j ≠ i → t.mi.level j = s.mi.level j) ∧ t.mi.angle = s.mi.angle ∧
       OnlyChanges [.mi] s t ∧ t.na = s.na)) ∧
  (∀ (i : LevelInput) (s : State),
     Runs (.stabilityTimerExpiry i) s (fun t =>
       ((s.mi.level i).timer.isRunning = false → OnlyChanges [] s t) ∧
       ((s.mi.level i).timer.isRunning = true →
         t.mi.level i = ⟨(s.mi.level i).pin, (s.mi.level i).pin, .stopped⟩ ∧
         (∀ j, j ≠ i → t.mi.level j = s.mi.level j) ∧ t.mi.angle = s.mi.angle ∧
         (i = .tailgate ∨ s.nrstAsserted = true → OnlyChanges [.mi] s t))))

/-- STOP rising (R10, R45, R85, R100): STOP_SEEN on every live record, the DV code 0 with the computed code kept, RUNNING
net-catch and transfer timers SUSPENDED. STOP falling with no request to grant (R72, R73, R81, R85, R96, R100): the
computed code recomputed for a FORMING record, the DV code in line, the SUSPENDED timers RUNNING for their full durations. -/
def Obligations.StopRisingAndFalling : Prop :=
  (∀ s : State, s.nrstAsserted = false → s.mi.stop.timer.isRunning = true → s.mi.stop.pin = true →
     s.mi.stop.filtered = false →
     Runs (.stabilityTimerExpiry .stop) s (fun t =>
       t.mi.stop.filtered = true ∧
       BalesBecome (s.bt.bales.map (fun b => { b with flags := { b.flags with stopSeen := true } })) s t ∧
       t.cu = { s.cu with
         dvCode := 0, netCatchTimer := if s.cu.netCatchTimer.isRunning then .suspended else s.cu.netCatchTimer } ∧
       t.hu = { s.hu with
         transferTimer := if s.hu.transferTimer.isRunning then .suspended else s.hu.transferTimer } ∧
       OnlyChanges [.mi, .bt, .cu, .hu] s t)) ∧
  (∀ s : State, s.nrstAsserted = false → s.mi.stop.timer.isRunning = true → s.mi.stop.pin = false →
     s.mi.stop.filtered = true →
     ¬ (s.WaitingRequest ∧ s.hu.reservation = none ∧ s.hu.tableHold = false) →
     Runs (.stabilityTimerExpiry .stop) s (fun t =>
       t.mi.stop.filtered = false ∧
       (∀ b, s.recordIn .chamber = some b → b.stage = .forming →
         t.cu.computedCode = codeFor s.rs.constants b.recipe s.mf.d.value) ∧
       ((∀ b, s.recordIn .chamber = some b → b.stage ≠ .forming) → t.cu.computedCode = s.cu.computedCode) ∧
       t.cu = { s.cu with
         computedCode := t.cu.computedCode
         dvCode := driveCode false s.cu.lockout (s.recordIn .chamber).isSome t.cu.computedCode
         netCatchTimer := if s.cu.netCatchTimer = .suspended then .running (s.rs.constants.netCatchTimeout * 100)
           else s.cu.netCatchTimer } ∧
       t.hu = { s.hu with
         transferTimer := if s.hu.transferTimer = .suspended then .running (s.rs.constants.transferTimeout * 1000)
           else s.hu.transferTimer } ∧
       OnlyChanges [.mi, .cu, .hu] s t))

/-- A waiting request is granted within the event that removes the last obstacle (R92, R93, R95, R100): at STOP falling
and at FREE TABLE, from the queue, with EJECT_GRANT on port A. The chamber empties, so the DV code is 0. -/
def Obligations.QueuedEjectIsGranted : Prop :=
  ∀ (s : State) (older younger : List Bale) (b : Bale), s.nrstAsserted = false → ZonesFall s →
    s.HoldsIn .chamber older b younger → b.stage = .netted → s.hu.ejectSlot = some b.seq →
    s.hu.reservation = none →
    (s.mi.stop.timer.isRunning = true → s.mi.stop.pin = false → s.mi.stop.filtered = true →
      s.hu.tableHold = false →
      Runs (.stabilityTimerExpiry .stop) s (fun t =>
        BalesBecome (older ++ b.granted s.bt.runClock :: younger) s t ∧
        t.hu = s.hu.granted b.seq s.rs.constants ∧
        t.cu = { s.cu with
          dvCode := 0, baleFull := false
          netCatchTimer := if s.cu.netCatchTimer = .suspended then .running (s.rs.constants.netCatchTimeout * 100)
            else s.cu.netCatchTimer } ∧
        Hands (stageSettings .table b.seq ++ [⟨.a, .ejectGrant, 0, b.seq⟩]) s t ∧
        OnlyChanges (.mi :: .bt :: .cu :: .hu :: arbiters) s t)) ∧
    (s.mi.stop.filtered = false →
      Runs (.freeTable .b []) s (fun t =>
        BalesBecome (older ++ b.granted s.bt.runClock :: younger) s t ∧
        t.hu = { s.hu.granted b.seq s.rs.constants with tableHold := false } ∧
        t.cu = { s.cu with dvCode := 0, baleFull := false } ∧
        Hands (stageSettings .table b.seq ++ [⟨.a, .ejectGrant, 0, b.seq⟩]) s t ∧
        Answered .b .freeTable .ok (flag1 false ++ byte2 b.seq ++ byte2 0) t ∧
        OnlyChanges (.bt :: .cu :: .hu :: .link .b :: arbiters) s t))

/-- TABLE_LOADED rising. On the EJECTING record it is the arrival (R97, R105 to R109): the transfer timer stops, TRANSFER
with instance 0 goes to port B, and the record enters WRAPPING with a new wrap section, or WRAPPED as a net-only bale
where its layer target is 0. With no EJECTING record it is an unexpected load (R99, R110): TABLE_UNEXPECTED on port B
with the reserved `seq`, or 0, and nothing else. -/
def Obligations.TableLoadedRising : Prop :=
  (∀ (s : State) (older younger : List Bale) (b : Bale) (n : NetFields), s.nrstAsserted = false → ZonesFall s →
     s.mi.tableLoaded.timer.isRunning = true → s.mi.tableLoaded.pin = true → s.mi.tableLoaded.filtered = false →
     s.HoldsIn .table older b younger → b.stage = .ejecting → b.net = some n → DriveInv s →
     Runs (.stabilityTimerExpiry .tableLoaded) s (fun t =>
       t.mi.tableLoaded.filtered = true ∧
       t.hu = { s.hu with transferTimer := .stopped } ∧
       (layersFor b ≠ 0 →
         BalesBecome (older ++
           { b with
             stage := .wrapping, arrived := some s.bt.runClock,
             flags := { b.flags with moistureUnknown := b.flags.moistureUnknown || b.moistureMean.isNone },
             wrap := some
               { layerTarget := layersFor b, circ := (n.diameter * 31416 + 500) / 1000, surfacePos := 0,
                 layers := List.replicate 64 0, revolutions := 0, lays1 := 0, lays2 := 0, film1 := 0, film2 := 0,
                 breaks := [], breakCount := 0 } } :: younger) s t ∧
         (∀ k, t.ds.film.get k = { s.ds.film.get k with silence := 0 }) ∧
         t.ds.netStock = s.ds.netStock ∧ t.ds.netKnown = s.ds.netKnown ∧
         Hands (stageSettings .table b.seq ++ [⟨.b, .transfer, 0, b.seq⟩]) s t ∧
         OnlyChanges (.mi :: .bt :: .hu :: .ds :: arbiters) s t) ∧
       (layersFor b = 0 →
         BalesBecome (older ++
           { b with
             stage := .wrapped, arrived := some s.bt.runClock, wrapped := some s.bt.runClock,
             flags := { b.flags with moistureUnknown := b.flags.moistureUnknown || b.moistureMean.isNone } } ::
             younger) s t ∧
         Hands (stageSettings .table b.seq ++ [⟨.b, .transfer, 0, b.seq⟩, ⟨.b, .wrapDone, 1, b.seq⟩]) s t ∧
         OnlyChanges (.mi :: .bt :: .hu :: arbiters) s t))) ∧
  (∀ s : State, s.nrstAsserted = false →
     s.mi.tableLoaded.timer.isRunning = true → s.mi.tableLoaded.pin = true → s.mi.tableLoaded.filtered = false →
     (∀ b, s.recordIn .table = some b → b.stage ≠ .ejecting) →
     Runs (.stabilityTimerExpiry .tableLoaded) s (fun t =>
       t.mi.tableLoaded.filtered = true ∧
       Hands [⟨.b, .tableUnexpected, 0, s.hu.reservation.getD 0⟩] s t ∧
       OnlyChanges [.mi, .arbiter .b] s t))

/-- TABLE_LOADED falling (R22, R24, R93, R127, R128, R157): a TIPPING record closes DONE, a WRAPPED one DONE with
UNCOMMANDED_TIP, a WRAPPING one DROPPED; its report is offered, the reservation released, and a waiting request that
nothing else holds back is granted within the fall. In any other case nothing closes. -/
def Obligations.TableLoadedFallingClosesTheBale : Prop :=
  ∀ s : State, s.nrstAsserted = false →
    s.mi.tableLoaded.timer.isRunning = true → s.mi.tableLoaded.pin = false → s.mi.tableLoaded.filtered = true →
    ((∀ b, s.recordIn .table = some b → b.stage = .ejecting) →
      Runs (.stabilityTimerExpiry .tableLoaded) s (fun t => OnlyChanges [.mi] s t)) ∧
    ∀ (b : Bale) (younger : List Bale), ZonesFall s → s.bt.bales = b :: younger → b.stage.zone = .table →
      b.stage ≠ .ejecting →
      Runs (.stabilityTimerExpiry .tableLoaded) s (fun t =>
        Arrives (b.fallen.closedBy (if b.stage = .wrapping then .dropped else .done) s.bt.runClock) s.rq t.rq ∧
        (¬ (s.WaitingRequest ∧ s.hu.tableHold = false ∧ s.mi.stop.filtered = false) →
          BalesBecome younger s t ∧
          t.hu = { s.hu with reservation := none, transferTimer := .stopped } ∧
          Hands (stageSettings .table b.seq) s t ∧
          OnlyChanges (.mi :: .bt :: .hu :: .rq :: arbiters) s t) ∧
        ∀ (c : Bale) (rest : List Bale), younger = c :: rest → c.stage = .netted → s.hu.ejectSlot = some c.seq →
          s.hu.tableHold = false → s.mi.stop.filtered = false →
          BalesBecome (c.granted s.bt.runClock :: rest) s t ∧
          t.hu = s.hu.granted c.seq s.rs.constants ∧
          t.cu = { s.cu with dvCode := 0, baleFull := false } ∧
          Hands (stageSettings .table c.seq ++ [⟨.a, .ejectGrant, 0, c.seq⟩]) s t ∧
          OnlyChanges (.mi :: .bt :: .cu :: .hu :: .rq :: arbiters) s t)

/-! ### Pulses -/

/-- A table encoder pulse (R48, R49, R135, R137): the angle steps, from Tp - 1 to 0; while a record is WRAPPING both
silence counters step up to a quarter revolution, and a RUNNING dispenser whose counter gets there breaks, dispenser 1
first. Where the pulse is a dispenser-2 lay position (angle Tp div 2), a lay of dispenser 2 follows the silence step
(R113 to R117, R119, R120, R142, R143; a film total past its range: log entry 26). -/
def Obligations.TablePulse : Prop :=
  ∀ s : State, s.nrstAsserted = false → 64 ≤ s.rs.constants.tablePulses → s.mi.angle < s.rs.constants.tablePulses →
    Runs .tablePulse s (fun t =>
      t.mi.angle = (if s.mi.angle + 1 = s.rs.constants.tablePulses then 0 else s.mi.angle + 1) ∧
      (∀ i, t.mi.level i = s.mi.level i) ∧
      (s.wrapping = none → OnlyChanges [.mi] s t) ∧
      ∀ (older younger : List Bale) (b : Bale) (w : WrapSection), ZonesFall s → DriveInv s →
        s.HoldsIn .table older b younger → b.stage = .wrapping → b.wrap = some w →
        ∃ u, SilenceStep older b w younger s u ∧
          (t.mi.angle ≠ s.rs.constants.tablePulses / 2 → OnlyChanges [.mi] u t) ∧
          (t.mi.angle = s.rs.constants.tablePulses / 2 → LayPosition .two u t))

/-- A table index pulse (R48, R121, R122): the angle becomes 0; a WRAPPING record gets its dispenser-1 lay position
first (R113 to R117, R119, R120, R142, R143; a film total past its range: log entry 26), then its revolution, and at
`max_revs` still WRAPPING it is capped. -/
def Obligations.TableIndex : Prop :=
  ∀ s : State, s.nrstAsserted = false →
    Runs .tableIndex s (fun t =>
      t.mi.angle = 0 ∧ (∀ i, t.mi.level i = s.mi.level i) ∧
      (s.wrapping = none → OnlyChanges [.mi] s t) ∧
      (s.wrapping.isSome = true → ZonesFall s → DriveInv s →
        ∃ u, LayPosition .one s u ∧ RevolutionStep u t))

/-- A bale-roller pulse (R111): the WRAPPING record's surface position moves by `roll_step` modulo its circumference,
whatever the STOP level and the dispensers; in any other case nothing changes. -/
def Obligations.BaleRoll : Prop :=
  ∀ s : State, s.nrstAsserted = false →
    Runs .baleRoll s (fun t =>
      (s.wrapping = none → OnlyChanges [] s t) ∧
      ∀ (older younger : List Bale) (b : Bale) (w : WrapSection),
        s.HoldsIn .table older b younger → b.stage = .wrapping → b.wrap = some w →
        BalesBecome (older ++ { b with wrap := some { w with
          surfacePos := (w.surfacePos + s.rs.constants.rollStep) % w.circ } } :: younger) s t ∧
        (0 < w.circ → (w.surfacePos + s.rs.constants.rollStep) % w.circ < w.circ) ∧
        OnlyChanges [.bt] s t)

/-- A net metering pulse (R79, R80, R145): a known net stock falls by `net_step`, not below 0; a NETTING record meters,
its net-catch timer stops, and at the target it enters NETTED with its turns and its moisture mean. Otherwise the pulse
is a stray one, and only the stock is charged. -/
def Obligations.NetRoll : Prop :=
  ∀ s : State, s.nrstAsserted = false →
    Runs .netRoll s (fun t =>
      t.ds = { s.ds with
        netStock := if s.ds.netKnown then s.ds.netStock - s.rs.constants.netStep else s.ds.netStock } ∧
      ((∀ b, s.recordIn .chamber = some b → b.stage ≠ .netting) → OnlyChanges [.ds] s t) ∧
      ∀ (older younger : List Bale) (b : Bale) (n : NetFields),
        s.HoldsIn .chamber older b younger → b.stage = .netting → b.net = some n →
        (n.metered + s.rs.constants.netStep < n.target →
          BalesBecome (older ++ { b with net := some { n with metered := n.metered + s.rs.constants.netStep } } ::
            younger) s t ∧
          t.cu = { s.cu with netCatchTimer := .stopped } ∧
          OnlyChanges [.bt, .cu, .ds] s t) ∧
        (n.target ≤ n.metered + s.rs.constants.netStep → DriveInv s →
          BalesBecome (older ++
            { b with
              net := some { n with metered := n.metered + s.rs.constants.netStep }
              netTurns := some ((n.metered + s.rs.constants.netStep - b.recipe.tail * 10) * 10 / n.circ)
              stage := .netted
              netted := some s.bt.runClock
              moistureMean := if b.moistureCount = 0 then none else some (b.moistureSum / b.moistureCount) } ::
            younger) s t ∧
          t.cu = { s.cu with netCatchTimer := .stopped } ∧
          Hands (stageSettings .chamber b.seq ++ [⟨.a, .netDone, 0, b.seq⟩]) s t ∧
          OnlyChanges (.bt :: .cu :: .ds :: arbiters) s t))

/-- A film pulse (R136): the dispenser's silence counter becomes 0, whatever its state and whether or not a record is
WRAPPING; its state and everything else stay. -/
def Obligations.FilmPulse : Prop :=
  ∀ (k : Dispenser) (s : State), s.nrstAsserted = false →
    Runs (.filmPulse k) s (fun t =>
      t.ds.film.get k = { s.ds.film.get k with silence := 0 } ∧
      (∀ j, j ≠ k → t.ds.film.get j = s.ds.film.get j) ∧
      t.ds.netStock = s.ds.netStock ∧ t.ds.netKnown = s.ds.netKnown ∧ OnlyChanges [.ds] s t)

/-- R115: sector centres rise with the sector and lie below the circumference, at least `circ` div 64 apart and at most
one more. R116: a lay adds one layer to each covered sector, up to 31, and no sector's count decreases. -/
def Obligations.SectorsAndLayers : Prop :=
  (∀ circ k, k < 63 →
    sectorCentre circ k + circ / 64 ≤ sectorCentre circ (k + 1) ∧
    sectorCentre circ (k + 1) ≤ sectorCentre circ k + circ / 64 + 1) ∧
  (∀ circ k, 0 < circ → k < 64 → sectorCentre circ k < circ) ∧
  (∀ circ k, sectorCentre circ k = (2 * k + 1) * circ / 128) ∧ (∀ circ, 28274 ≤ circ → 441 ≤ circ / 64) ∧
  ∀ circ pos w (layers : List Nat) k n, layers[k]? = some n → n ≤ 31 →
    (addLayer circ pos w 0 layers)[k]? =
      some (if (((2 * k + 1) * circ / 128 : Nat) - (pos : Int)) % (circ : Int) < (w : Int) then min 31 (n + 1) else n)

/-! ### Channels -/

/-- A conversion completion with its timer running (R29, R30, R31): the channel record of R30, then the automatic start
of R35. No other channel changes. With the timer stopped there is none (R36). -/
def Obligations.ConversionCompletion : Prop :=
  ∀ (ch : Channel) (raw : Int) (s : State), s.nrstAsserted = false →
    Runs (.conversionCompletion ch raw) s (fun t =>
      ((s.mf.get ch).convTimer.isRunning = false → OnlyChanges [] s t) ∧
      ((s.mf.get ch).convTimer.isRunning = true →
        (t.mf.get ch).raw = raw ∧
        (t.mf.get ch).value = scaled (s.rs.chan.get ch).pair (channelTop ch) raw ∧
        (t.mf.get ch).saturated = decide (raw = 32767 ∨ raw = -32767) ∧
        (t.mf.get ch).debt = (s.mf.get ch).debt ∧ (t.mf.get ch).hold = (s.mf.get ch).hold ∧
        (t.mf.get ch).zeroDueTimer = (s.mf.get ch).zeroDueTimer ∧
        (1 ≤ (s.mf.get ch).debt → (s.mf.get ch).hold = ⟨false, false, false⟩ → (s.mf.get ch).zeroing = false →
          (t.mf.get ch).zeroing = true ∧ (t.mf.get ch).stale = true ∧ (t.mf.get ch).convTimer = .stopped) ∧
        (¬ (1 ≤ (s.mf.get ch).debt ∧ (s.mf.get ch).hold = ⟨false, false, false⟩ ∧ (s.mf.get ch).zeroing = false) →
          (t.mf.get ch).zeroing = (s.mf.get ch).zeroing ∧ (t.mf.get ch).stale = false ∧
          (t.mf.get ch).convTimer = .running (s.rs.chan.get ch).period) ∧
        (∀ c, c ≠ ch → t.mf.get c = s.mf.get c) ∧ OnlyChanges [.mf, .bt, .cu] s t))

/-- What CU makes of a P completion (R65, R67, R73): the peak of a FORMING or NETTING record, the lockout with its
hysteresis, OVERPRESSURE_SEEN on the chamber record while it is set, the DV code. -/
def Obligations.PressureCompletion : Prop :=
  ∀ (raw : Int) (s : State), s.nrstAsserted = false → s.mf.p.convTimer.isRunning = true →
    Runs (.conversionCompletion .p raw) s (fun t =>
      (s.cu.lockout = false → (t.cu.lockout = true ↔ s.rs.constants.opLimit < t.mf.p.value)) ∧
      (s.cu.lockout = true → s.rs.constants.opHyst ≤ s.rs.constants.opLimit →
        (t.cu.lockout = false ↔ t.mf.p.value + s.rs.constants.opHyst < s.rs.constants.opLimit)) ∧
      t.cu = { s.cu with
        lockout := t.cu.lockout
        dvCode := driveCode s.mi.stop.filtered t.cu.lockout (s.recordIn .chamber).isSome s.cu.computedCode } ∧
      (s.recordIn .chamber = none → OnlyChanges [.mf, .cu] s t) ∧
      ∀ (older younger : List Bale) (b : Bale), s.HoldsIn .chamber older b younger →
        BalesBecome (older ++
          { b with
            peakPressure := if b.stage = .netted then b.peakPressure else max b.peakPressure t.mf.p.value
            flags := { b.flags with overpressureSeen := b.flags.overpressureSeen || t.cu.lockout } } :: younger) s t)

/-- What CU makes of a D completion (R69, R72, R73) and of an M completion (R66). The computed code follows D, and the
moisture sum and count follow M, while the chamber record is FORMING, and only then. -/
def Obligations.DiameterAndMoistureCompletion : Prop :=
  ∀ (raw : Int) (s : State), s.nrstAsserted = false →
    (s.mf.d.convTimer.isRunning = true →
      Runs (.conversionCompletion .d raw) s (fun t =>
        ((∀ b, s.recordIn .chamber = some b → b.stage ≠ .forming) → t.cu.computedCode = s.cu.computedCode) ∧
        (∀ b, s.recordIn .chamber = some b → b.stage = .forming →
          t.cu.computedCode = codeFor s.rs.constants b.recipe t.mf.d.value) ∧
        t.cu = { s.cu with
          computedCode := t.cu.computedCode
          dvCode := driveCode s.mi.stop.filtered s.cu.lockout (s.recordIn .chamber).isSome t.cu.computedCode
          baleFull := fullFor (s.recordIn .chamber) t.mf.d.value } ∧
        OnlyChanges [.mf, .cu] s t)) ∧
    (s.mf.m.convTimer.isRunning = true →
      Runs (.conversionCompletion .m raw) s (fun t =>
        ((∀ b, s.recordIn .chamber = some b → b.stage ≠ .forming) → OnlyChanges [.mf] s t) ∧
        ∀ (older younger : List Bale) (b : Bale), s.HoldsIn .chamber older b younger → b.stage = .forming →
          BalesBecome (older ++
            (if b.moistureCount < 65535 then
              { b with moistureSum := b.moistureSum + t.mf.m.value, moistureCount := b.moistureCount + 1 }
            else b) :: younger) s t ∧
          OnlyChanges [.mf, .bt] s t))

/-- R70 and R71: the set pressure by the profile, between the core and the shell pressure, and the valve code by the
valve's characteristic, clamped to 16 bits. -/
def Obligations.DensityProfile : Prop :=
  ∀ (r : Recipe) (k : Constants) (d : Nat), 1 ≤ r.r →
    (d ≤ r.dc → setPressure r d = r.pc) ∧
    (r.dc + r.r ≤ d → setPressure r d = r.ps) ∧
    (r.dc < d → d < r.dc + r.r →
      (setPressure r d : Int) = r.pc + Int.tdiv (((r.ps : Int) - r.pc) * ((d : Int) - r.dc)) r.r) ∧
    (min r.pc r.ps ≤ setPressure r d ∧ setPressure r d ≤ max r.pc r.ps) ∧
    (valveCode k (setPressure r d) : Int) =
      max 0 (min 65535 (k.dvOffset + ((setPressure r d * k.dvGain / 256 : Nat) : Int)))

/-- A zero-due expiry (R34, R35, R36): below a debt of 8 the debt steps up and an automatic cycle starts where no port
holds the channel and none runs; at 8 a cycle is forced, with ZERO_FORCED on every port, unless one is running. The end
of a cycle (R37): zeroing cleared, the debt one lower, the conversion timer restarted, STALE left, no notice. A timer
that is not RUNNING does not expire, and with no cycle running none ends (log entry 5). -/
def Obligations.ZeroDueAndAutoZero : Prop :=
  (∀ (ch : Channel) (s : State), s.nrstAsserted = false →
     Runs (.zeroDueExpiry ch) s (fun t =>
       ((s.mf.get ch).zeroDueTimer.isRunning = false → OnlyChanges [] s t) ∧
       ((s.mf.get ch).zeroDueTimer.isRunning = true →
         (t.mf.get ch).zeroDueTimer = .running 2000 ∧
         (∀ c, c ≠ ch → t.mf.get c = s.mf.get c) ∧
         ((s.mf.get ch).debt < 8 →
           (¬ (0 ≤ (s.mf.get ch).debt ∧ (s.mf.get ch).hold = ⟨false, false, false⟩ ∧ (s.mf.get ch).zeroing = false) →
             t.mf.get ch = { s.mf.get ch with debt := (s.mf.get ch).debt + 1, zeroDueTimer := .running 2000 }) ∧
           (0 ≤ (s.mf.get ch).debt → (s.mf.get ch).hold = ⟨false, false, false⟩ → (s.mf.get ch).zeroing = false →
             t.mf.get ch = { s.mf.get ch with
               debt := (s.mf.get ch).debt + 1, zeroDueTimer := .running 2000, zeroing := true, stale := true,
               convTimer := .stopped }) ∧
           OnlyChanges [.mf] s t) ∧
         ((s.mf.get ch).debt = 8 → (s.mf.get ch).zeroing = true →
           t.mf.get ch = { s.mf.get ch with zeroDueTimer := .running 2000 } ∧ OnlyChanges [.mf] s t) ∧
         ((s.mf.get ch).debt = 8 → (s.mf.get ch).zeroing = false →
           t.mf.get ch = { s.mf.get ch with
             zeroDueTimer := .running 2000, zeroing := true, stale := true, convTimer := .stopped } ∧
           Hands [⟨.a, .zeroForced, channelInst ch, channelNumber ch⟩, ⟨.b, .zeroForced, channelInst ch, channelNumber ch⟩,
             ⟨.c, .zeroForced, channelInst ch, channelNumber ch⟩] s t ∧
           OnlyChanges (.mf :: arbiters) s t)))) ∧
  (∀ (ch : Channel) (s : State), s.nrstAsserted = false →
     Runs (.autoZeroCompletion ch) s (fun t =>
       ((s.mf.get ch).zeroing = true →
         t.mf.get ch = { s.mf.get ch with
           zeroing := false, debt := (s.mf.get ch).debt - 1, convTimer := .running (s.rs.chan.get ch).period } ∧
         (∀ c, c ≠ ch → t.mf.get c = s.mf.get c) ∧ OnlyChanges [.mf] s t) ∧
       ((s.mf.get ch).zeroing = false → OnlyChanges [] s t)))

/-! ### The net-catch and transfer timers -/

/-- The expiry of a RUNNING net-catch timer (R82): the NETTING record returns to FORMING with its net fields kept, the
computed code is taken from the held D value, NET_MISS goes to port A. The expiry of a RUNNING transfer timer (R98):
TRANSFER_FAULT on the EJECTING record, TRANSFER with instance 1 on ports A and B; the record stays EJECTING. A timer
that is not RUNNING does not expire (log entry 5). -/
def Obligations.NetCatchAndTransferExpiry : Prop :=
  (∀ s : State, s.nrstAsserted = false →
     Runs .netCatchExpiry s (fun t =>
       (s.cu.netCatchTimer.isRunning = false → OnlyChanges [] s t) ∧
       ∀ (older younger : List Bale) (b : Bale), s.cu.netCatchTimer.isRunning = true →
         s.HoldsIn .chamber older b younger → b.stage = .netting →
         BalesBecome (older ++
           { b with stage := .forming, formed := some (b.formed.getD s.bt.runClock) } :: younger) s t ∧
         ChamberBecomes (some { b with stage := .forming }) (codeFor s.rs.constants b.recipe s.mf.d.value) .stopped s t ∧
         Hands (stageSettings .chamber b.seq ++ [⟨.a, .netMiss, 0, b.seq⟩]) s t ∧
         OnlyChanges (.bt :: .cu :: arbiters) s t)) ∧
  (∀ s : State, s.nrstAsserted = false →
     Runs .transferTimerExpiry s (fun t =>
       (s.hu.transferTimer.isRunning = false → OnlyChanges [] s t) ∧
       ∀ (older younger : List Bale) (b : Bale), s.hu.transferTimer.isRunning = true →
         s.HoldsIn .table older b younger → b.stage = .ejecting →
         BalesBecome (older ++ { b with flags := { b.flags with transferFault := true } } :: younger) s t ∧
         t.hu = { s.hu with transferTimer := .stopped } ∧
         Hands [⟨.a, .transfer, 1, b.seq⟩, ⟨.b, .transfer, 1, b.seq⟩] s t ∧
         OnlyChanges [.bt, .hu, .arbiter .a, .arbiter .b] s t))

/-! ### The wire -/

/-- An address character, and the inter-character timeout (R183, R184): a partial frame that holds data characters is
abandoned and counted, with LINK instance 0 on the port; the receiver is LISTENING with an empty frame after a matching
address character, damaged by a stop-bit error, and DOZING after any other and after the timeout. -/
def Obligations.AddressCharacterAndTimeout : Prop :=
  ∀ (l : LinePort) (data : Byte) (stopError : Bool) (s : State), s.nrstAsserted = false →
    Runs (.addressCharacter l data stopError) s (fun t =>
      (t.line l).rx = (if data.toNat = addressOf s.straps (linePort l) then .listening [] stopError else .dozing) ∧
      Abandons l s t) ∧
    Runs (.interCharacterTimeout l) s (fun t => (t.line l).rx = .dozing ∧ Abandons l s t)

/-- A data character (R184, R185): ignored while DOZING; while LISTENING it is appended, a length character above 48
abandons the frame, and the character that makes the frame 3 + n long completes it: discarded under FRAMING when
damaged, under CHECK when its sum is not 0, and otherwise good. -/
def Obligations.DataCharacter : Prop :=
  ∀ (l : LinePort) (data : Byte) (stopError : Bool) (s : State), s.nrstAsserted = false →
    Runs (.dataCharacter l data stopError) s (fun t =>
      ((s.line l).rx = .dozing → OnlyChanges [] s t) ∧
      ∀ (chars : List Byte) (damaged : Bool), (s.line l).rx = .listening chars damaged →
        (chars.length = 1 → 48 < data.toNat →
          (t.line l).rx = .dozing ∧ CountsError l .abandoned s t) ∧
        (chars.length = 0 ∨ (chars.length = 1 ∧ data.toNat ≤ 48) ∨
            (2 ≤ chars.length ∧ chars.length + 1 ≠ 3 + nat1 chars 1) →
          (t.line l).rx = .listening (chars ++ [data]) (damaged || stopError) ∧
          LineFrame l s t ∧ OnlyChanges [.link (linePort l)] s t) ∧
        (2 ≤ chars.length → chars.length + 1 = 3 + nat1 chars 1 → (damaged || stopError) = true →
          (t.line l).rx = .dozing ∧ CountsError l .framing s t) ∧
        (2 ≤ chars.length → chars.length + 1 = 3 + nat1 chars 1 → (damaged || stopError) = false →
          byteSum (chars ++ [data]) ≠ 0 → (t.line l).rx = .dozing ∧ CountsError l .check s t))

/-- A good frame by the transmitter (R186): taken at once where it is idle, which is what the request's own row does to
the DOZING receiver's state (log entries 3 and 10); else it waits in the pending slot, and replaces one waiting there
under PENDING_LOST. -/
def Obligations.GoodFrame : Prop :=
  ∀ (l : LinePort) (data : Byte) (s : State) (code : Byte) (payload : List Byte) (len : Byte) (i : Instr),
    s.nrstAsserted = false → len.toNat = payload.length → payload.length ≤ 48 →
    (s.line l).rx = .listening (code :: len :: payload) false →
    byteSum ((code :: len :: payload) ++ [data]) = 0 →
    requestRow i = some (linePort l, code, payload) →
    ((s.line l).tx = none →
      exec (.dataCharacter l data false) s = exec i (s.modifyLine l (fun x => { x with rx := .dozing }))) ∧
    (∀ r, (s.line l).tx = some r → (s.line l).held = none →
      Runs (.dataCharacter l data false) s (fun t =>
        t.line l = { s.line l with rx := .dozing, held := some ⟨code, payload⟩ } ∧
        OnlyChanges [.link (linePort l)] s t)) ∧
    (∀ r q, (s.line l).tx = some r → (s.line l).held = some q →
      Runs (.dataCharacter l data false) s (fun t =>
        t.line l = { s.line l with
          rx := .dozing, held := some ⟨code, payload⟩, errorLatch := true
          pendingLost := stepSaturating (s.line l).pendingLost 255 } ∧
        Hands [⟨linePort l, .link, 1, (t.line l).pendingLost⟩] s t ∧
        OnlyChanges [.link (linePort l), .arbiter (linePort l)] s t))

/-- The end of a response transmission (R186): the pending frame, if any, is taken as its own row takes it; otherwise
the transmitter becomes idle. With the transmitter idle already there is no end (log entry 5). -/
def Obligations.ResponseTransmissionCompletion : Prop :=
  ∀ (l : LinePort) (s : State), s.nrstAsserted = false →
    ((s.line l).tx = none →
      Runs (.responseTransmissionCompletion l) s (fun t => OnlyChanges [] s t)) ∧
    (∀ r, (s.line l).tx = some r → (s.line l).held = none →
      Runs (.responseTransmissionCompletion l) s (fun t =>
        t.line l = { s.line l with tx := none } ∧ t.sends l = [] ∧ OnlyChanges [.link (linePort l)] s t)) ∧
    ∀ r q i, (s.line l).tx = some r → (s.line l).held = some q →
      requestRow i = some (linePort l, q.code, q.payload) →
      exec (.responseTransmissionCompletion l) s =
        exec i (s.modifyLine l (fun x => { x with tx := none, held := none }))

/-- A transaction to another address (R189): LC acknowledges and returns nothing. A port C write to its own: the address
and data bytes 1 to 51 acknowledged, a 52nd or later not; no bytes, nothing taken; more than 51 bytes or not 3 + n,
discarded under LENGTH; a sum not 0, discarded under CHECK; else the request is taken as its own row takes it. A port C
read (R191): the address acknowledged, the response from its first byte (echo, status, length, payload, check), or the
idle frame, and 0xFF beyond; one that reaches the check byte empties the buffer, one that ends before it leaves the
response; nothing else changes. What LC put on the wires stands in the model's own fields `acks` and `sda` (log entry 16),
the check byte follows log entry 9, and a row carries the address of its transaction (log entry 25). -/
def Obligations.PortCTransactions : Prop :=
  (∀ (address : BitVec 7) (bytes : List Byte) (count : Nat) (s : State), s.nrstAsserted = false →
     address.toNat ≠ 0x2C + s.straps.c.toNat →
     Runs (.writeTransaction ⟨address, bytes⟩) s (fun t =>
       t.lc = { s.lc with acks := [], sda := [] } ∧ OnlyChanges [.link .c] s t) ∧
     Runs (.readTransaction ⟨address, count⟩) s (fun t =>
       t.lc = { s.lc with acks := [], sda := [] } ∧ OnlyChanges [.link .c] s t)) ∧
  (∀ (address : BitVec 7) (bytes : List Byte) (s u : State), s.nrstAsserted = false →
     address.toNat = 0x2C + s.straps.c.toNat →
     u = { s with lc := { s.lc with
       acks := true :: (List.range bytes.length).map (fun k => decide (k < 51)), sda := [] } } →
     (bytes = [] → Runs (.writeTransaction ⟨address, bytes⟩) s (fun t => t.lc = u.lc ∧ OnlyChanges [.link .c] s t)) ∧
     (bytes ≠ [] → 51 < bytes.length ∨ bytes.length ≠ 3 + nat1 bytes 1 →
       Runs (.writeTransaction ⟨address, bytes⟩) s (fun t =>
         t.lc = { u.lc with length := stepSaturating s.lc.length 255, errorLatch := true } ∧
         Hands [⟨.c, .link, 0, stepSaturating s.lc.length 255⟩] s t ∧ OnlyChanges [.link .c, .arbiter .c] s t)) ∧
     (bytes.length ≤ 51 → bytes.length = 3 + nat1 bytes 1 → byteSum bytes ≠ 0 →
       Runs (.writeTransaction ⟨address, bytes⟩) s (fun t =>
         t.lc = { u.lc with check := stepSaturating s.lc.check 255, errorLatch := true } ∧
         Hands [⟨.c, .link, 0, stepSaturating s.lc.check 255⟩] s t ∧ OnlyChanges [.link .c, .arbiter .c] s t)) ∧
     ∀ (code len check : Byte) (payload : List Byte) (i : Instr), bytes = code :: len :: payload ++ [check] →
       len.toNat = payload.length → payload.length ≤ 48 → byteSum bytes = 0 →
       requestRow i = some (.c, code, payload) → exec (.writeTransaction ⟨address, bytes⟩) s = exec i u) ∧
  (∀ (address : BitVec 7) (count : Nat) (s : State), s.nrstAsserted = false →
     address.toNat = 0x2C + s.straps.c.toNat →
     Runs (.readTransaction ⟨address, count⟩) s (fun t =>
       t.lc.acks = [true] ∧ t.lc.sda.length = count ∧
       (∀ r, s.lc.buffer = some r →
         (∃ frame, FrameOf r frame ∧ ∀ k, k < count → t.lc.sda[k]? = some (frame.getD k 0xFF)) ∧
         (r.reply.payload.length + 4 ≤ count → t.lc.buffer = none ∧ t.lc.readPos = 0) ∧
         (count < r.reply.payload.length + 4 → t.lc.buffer = some r ∧ t.lc.readPos = count)) ∧
       (s.lc.buffer = none →
         t.lc.buffer = none ∧ t.lc.readPos = 0 ∧
         ∀ k, k < count → t.lc.sda[k]? = some (if k < 4 then 0x00 else 0xFF)) ∧
       t.lc = { s.lc with
         acks := t.lc.acks, sda := t.lc.sda, buffer := t.lc.buffer, readPos := t.lc.readPos } ∧
       OnlyChanges [.link .c] s t))

/-! ### Requests in general -/

/-- Taking a request (R190, R192, R196, R197): FRAMES steps; every command but READ NEXT discards the port's transfer
image, RELEASE REPORT not excepted, which is the model's reading of R160 beside R196 (log entry 28); on port C an unconsumed response is discarded first, counted, and noticed with LINK instance 2. Exactly one
response is composed, echoing the code. No other port's link unit changes, and outside READ LINK STATS and PORT RESET
nothing else of the port's own. Ports A and B send the address character with the station address, then the response's
bytes (R187, Table 10-1), the check byte by log entry 9. A row taken while port A or B still sends replaces the response
being sent (log entry 3), which no run of the part shows. -/
def Obligations.RequestTaken : Prop :=
  ∀ (i : Instr) (p : Port) (code : Byte) (payload : List Byte) (s : State), s.nrstAsserted = false →
    requestRow i = some (p, code, payload) →
    ((beforeTake p code s).framesOf p = stepSaturating (s.framesOf p) 255 ∧
      (code ≠ 0x03 → (beforeTake p code s).imageOf p = none) ∧
      (code = 0x03 → (beforeTake p code s).imageOf p = s.imageOf p) ∧
      (s.loses p = true →
        (beforeTake p code s).lc.buffer = none ∧ (beforeTake p code s).lc.errorLatch = true ∧
        (beforeTake p code s).lc.responseLost = stepSaturating s.lc.responseLost 255 ∧
        Hands [⟨.c, .link, 2, stepSaturating s.lc.responseLost 255⟩] s (beforeTake p code s)) ∧
      OnlyChanges (takeBlocks p s) s (beforeTake p code s)) ∧
    Runs i s (fun t =>
      (∃ reply, t.responseOn p = some ⟨code, reply⟩ ∧
        ∀ l, p = linePort l → ∃ frame, FrameOf ⟨code, reply⟩ frame ∧
          t.sends l = ⟨true, BitVec.ofNat 8 (addressOf s.straps p)⟩ :: frame.map (fun b => ⟨false, b⟩)) ∧
      (code ≠ 0x0F → t.framesOf p = stepSaturating (s.framesOf p) 255) ∧
      (code ∉ [0x03, 0x10, 0x41, 0x48] → t.imageOf p = none) ∧
      (code ∉ [0x0C, 0x0F] → LinkKept p s t) ∧
      (∀ q, q ≠ p → Block.same s t (.link q)))

/-- The checks common to all commands, in the order of R192, by the rows of Table 10-3: an unknown code, then a port
outside the command's set, then a payload of the wrong length; with the status codes of Table 10-2. And a refused command
changes no state of its owning block (00_scope.md, 4.3): wherever the response carries a status of 0x10 or above, only the
port's link unit has changed, and port C's LINK latch where a response was lost. -/
def Obligations.RefusalsChangeNothing : Prop :=
  (∀ (i : Instr) (p : Port) (code : Byte) (payload : List Byte) (s : State), s.nrstAsserted = false →
     requestRow i = some (p, code, payload) →
     ((∀ row ∈ commandRows, row.code ≠ code.toNat) → Runs i s (RefusedCode p code .unknownCommand s)) ∧
     ∀ row ∈ commandRows, row.code = code.toNat →
       (p ∉ row.ports → Runs i s (RefusedCode p code .notPermitted s)) ∧
       (∀ n, p ∈ row.ports → row.length = some n → payload.length ≠ n →
         Runs i s (RefusedCode p code .badLength s))) ∧
  (∀ row ∈ statusRows, row.1.code = row.2) ∧
  (∀ (i : Instr) (p : Port) (code : Byte) (payload : List Byte) (s : State), s.nrstAsserted = false →
     requestRow i = some (p, code, payload) →
     Runs i s (fun t => ∀ r, t.responseOn p = some r → 0x10 ≤ r.reply.status.code → OnlyChanges (takeBlocks p s) s t))

/-! ### Reading the part -/

/-- IDENTIFY (R199) and READ STATUS (R200, Table 10-5): what each returns, and that nothing but the taking of the request
changes, which is the FRAMES step, the discard of the image and the response itself. The reservation item and the TABLE
item of READ STATUS agree by `HandoverInv`. -/
def Obligations.IdentifyAndReadStatus : Prop :=
  ∀ (p : Port) (s : State), s.nrstAsserted = false →
    Runs (.identify p []) s (fun t =>
      Answered p .identify .ok
        (byte2 340 ++ byte1 1 ++ byte1 (portNumber p) ++ byte1 (addressOf s.straps p) ++ byte1 (strapValue s.straps p)) t ∧
      LinkKept p s t ∧ t.imageOf p = none ∧ OnlyChanges (takeBlocks p s) s t) ∧
    Runs (.readStatus p []) s (fun t =>
      Answered p .readStatus .ok
        (byte4 s.bt.runClock ++
          byte1 (s.mi.stop.filtered.toNat + 2 * s.mi.tailgate.filtered.toNat + 4 * s.mi.tableLoaded.filtered.toNat) ++
          byte2 s.mi.angle ++ byte2 s.cu.dvCode ++ flag1 s.cu.lockout ++ byte1 s.cu.netCatchTimer.code ++
          byte2 (s.hu.reservation.getD 0) ++ byte2 (s.hu.ejectSlot.getD 0) ++ flag1 s.hu.tableHold ++
          byte1 s.hu.transferTimer.code ++
          byte2 (((s.recordIn .pre).map Bale.seq).getD 0) ++ byte2 (((s.recordIn .chamber).map Bale.seq).getD 0) ++
          byte2 (((s.recordIn .table).map Bale.seq).getD 0) ++
          byte1 s.rq.queue.length ++ byte1 (s.rq.holding.isSome.toNat + 2 * s.rq.overrun.toNat) ++
          byte1 (((beforeTake p 0x02 s).errorLatchOf p).toNat + 2 * ((beforeTake p 0x02 s).raised p).toNat)) t ∧
      LinkKept p s t ∧ t.imageOf p = none ∧ OnlyChanges (takeBlocks p s) s t)

/-- READ CHANNEL (R41), READ MACHINE (R62) and READ STOCK (R151): what each returns, the refusals of a channel or group
number out of range, and that nothing but the taking of the request changes. -/
def Obligations.ReadChannelMachineAndStock : Prop :=
  ∀ (p : Port) (n : Byte) (s : State), s.nrstAsserted = false →
    (∀ ch, n.toNat = channelNumber ch →
      Runs (.readChannel p [n]) s (fun t =>
        Answered p .readChannel .ok
          (byte2 (s.mf.get ch).value ++ signed2 (s.mf.get ch).raw ++
            byte1 ((s.mf.get ch).stale.toNat + 2 * (s.mf.get ch).saturated.toNat + 4 * (s.mf.get ch).zeroing.toNat) ++
            signed1 (s.mf.get ch).debt ++
            byte1 ((s.mf.get ch).hold.a.toNat + 2 * (s.mf.get ch).hold.b.toNat + 4 * (s.mf.get ch).hold.c.toNat) ++
            byte1 (s.rs.chan.get ch).period) t ∧
        OnlyChanges (takeBlocks p s) s t) ∧
      Runs (.readMachine p [n]) s (fun t =>
        Answered p .readMachine .ok
          (byte1 n.toNat ++ byte1 (s.rs.chan.get ch).period ++
            signed2 (s.rs.chan.get ch).pair.raw0 ++ byte2 (s.rs.chan.get ch).pair.eng0 ++
            signed2 (s.rs.chan.get ch).pair.raw1 ++ byte2 (s.rs.chan.get ch).pair.eng1) t ∧
        OnlyChanges (takeBlocks p s) s t)) ∧
    (n.toNat = 3 →
      Runs (.readMachine p [n]) s (fun t =>
        Answered p .readMachine .ok
          (byte1 3 ++ byte2 s.rs.constants.baleWidth ++ byte2 s.rs.constants.filmWidth ++
            byte2 s.rs.constants.rollStep ++ byte2 s.rs.constants.netStep ++ byte2 s.rs.constants.tablePulses ++
            byte1 s.rs.constants.transferTimeout ++ byte1 s.rs.constants.netCatchTimeout ++
            byte2 s.rs.constants.opLimit ++ byte2 s.rs.constants.opHyst ++ signed2 s.rs.constants.dvOffset ++
            byte2 s.rs.constants.dvGain ++ byte4 s.rs.constants.netLow ++ byte4 s.rs.constants.filmLow) t ∧
        OnlyChanges (takeBlocks p s) s t)) ∧
    (2 < n.toNat → Runs (.readChannel p [n]) s (Refused p .readChannel .badValue s)) ∧
    (3 < n.toNat → Runs (.readMachine p [n]) s (Refused p .readMachine .badValue s)) ∧
    Runs (.readStock p []) s (fun t =>
      Answered p .readStock .ok
        (flag1 s.ds.netKnown ++ byte4 s.ds.netStock ++
          byte1 s.ds.film.one.state.code ++ flag1 s.ds.film.one.known ++ byte4 s.ds.film.one.stock ++
          byte2 s.ds.film.one.silence ++ byte1 s.ds.film.one.residue ++
          byte1 s.ds.film.two.state.code ++ flag1 s.ds.film.two.known ++ byte4 s.ds.film.two.stock ++
          byte2 s.ds.film.two.silence ++ byte1 s.ds.film.two.residue ++
          flag1 (decide (lowSet s ≠ 0)) ++ byte1 (lowSet s)) t ∧
      OnlyChanges (takeBlocks p s) s t)

/-- READ BALE (R21), READ RECIPE (R57) and FETCH REPORT (R160): each puts the image of what it names on the port and answers
with its first chunk, MORE where more remain (R194), or is refused. READ NEXT (R195): NO_TRANSFER without an image;
BAD_VALUE unless the number is the last chunk sent or the one after it and names a chunk; else that chunk. -/
def Obligations.ImagesAndChunks : Prop :=
  (∀ (p : Port) (s : State), s.nrstAsserted = false →
     (∀ sel hi lo : Byte,
       (1 < sel.toNat → Runs (.readBale p [sel, hi, lo]) s (Refused p .readBale .badValue s)) ∧
       (sel.toNat = 0 → s.recordOf (hi.toNat * 256 + lo.toNat) = none →
         Runs (.readBale p [sel, hi, lo]) s (Refused p .readBale .noSuchBale s)) ∧
       (∀ b, sel.toNat = 0 → s.recordOf (hi.toNat * 256 + lo.toNat) = some b →
         Runs (.readBale p [sel, hi, lo]) s (SendsImage p .readBale (baleImage b) s)) ∧
       (sel.toNat = 1 → 2 < hi.toNat * 256 + lo.toNat →
         Runs (.readBale p [sel, hi, lo]) s (Refused p .readBale .badValue s)) ∧
       (∀ z : Zone, sel.toNat = 1 → hi.toNat * 256 + lo.toNat = z.number.val → s.recordIn z = none →
         Runs (.readBale p [sel, hi, lo]) s (Refused p .readBale .noSuchBale s)) ∧
       ∀ (z : Zone) (b : Bale), sel.toNat = 1 → hi.toNat * 256 + lo.toNat = z.number.val → s.recordIn z = some b →
         Runs (.readBale p [sel, hi, lo]) s (SendsImage p .readBale (baleImage b) s)) ∧
     (∀ n : Byte,
       (7 < n.toNat → Runs (.readRecipe p [n]) s (Refused p .readRecipe .badValue s)) ∧
       ∀ x, n.toNat ≤ 7 → s.rs.slots[n.toNat]? = some x →
         Runs (.readRecipe p [n]) s
           (SendsImage p .readRecipe (byte1 n.toNat ++ flag1 x.valid ++ recipeBlock x.recipe) s)) ∧
     (s.rq.queue = [] → Runs (.fetchReport p []) s (Refused p .fetchReport .empty s)) ∧
     ∀ r rest, s.rq.queue = r :: rest → Runs (.fetchReport p []) s (SendsImage p .fetchReport (baleImage r) s)) ∧
  (∀ (p : Port) (k : Byte) (s : State), s.nrstAsserted = false →
     (s.imageOf p = none → Runs (.readNext p [k]) s (Refused p .readNext .noTransfer s)) ∧
     ∀ img, s.imageOf p = some img →
       (¬ ((k.toNat = img.lastChunk ∨ k.toNat = img.lastChunk + 1) ∧ 47 * k.toNat < img.bytes.length) →
         Runs (.readNext p [k]) s (fun t => Refused p .readNext .badValue s t ∧ t.imageOf p = some img)) ∧
       (k.toNat = img.lastChunk ∨ k.toNat = img.lastChunk + 1 → 47 * k.toNat < img.bytes.length →
         Runs (.readNext p [k]) s (fun t =>
           t.imageOf p = some { img with lastChunk := k.toNat } ∧
           Answered p .readNext (if 47 * (k.toNat + 1) < img.bytes.length then .more else .ok)
             (k :: (img.bytes.drop (47 * k.toNat)).take 47) t ∧
           OnlyChanges (takeBlocks p s) s t)))

/-- A bale image is 90 bytes without a wrap section, and 174 bytes with one of 64 counts, 8 more for each break entry
(R194). Every field stands at its offset of Table 10-4, most significant byte first, with its code (section 10.4), an
absent one as 0 with its mark clear (R193). -/
def Obligations.BaleImageLayout : Prop :=
  (∀ n, byte2 n = [BitVec.ofNat 8 (n / 256), BitVec.ofNat 8 n] ∧
    byte4 n = [BitVec.ofNat 8 (n / 16777216), BitVec.ofNat 8 (n / 65536), BitVec.ofNat 8 (n / 256), BitVec.ofNat 8 n]) ∧
  [Stage.gathering, .forming, .netting, .netted, .ejecting, .wrapping, .wrapped, .tipping].map Stage.code =
    [0, 1, 2, 3, 4, 5, 6, 7] ∧
  [none, some CloseReason.done, some .discarded, some .dropped, some .lostInTransfer, some .reset].map closeReasonCode =
    [0, 1, 2, 3, 4, 5] ∧
  ∀ b : Bale,
    (b.wrap = none → (baleImage b).length = 90) ∧
    (∀ w, b.wrap = some w → w.layers.length = 64 → (baleImage b).length = 174 + 8 * w.breaks.length) ∧
    (CarriesAt (baleImage b) 0 (byte2 b.seq) ∧ CarriesAt (baleImage b) 2 (byte1 b.recipeIndex) ∧
      CarriesAt (baleImage b) 3 (byte1 b.stage.code) ∧ CarriesAt (baleImage b) 4 (byte1 (closeReasonCode b.closeReason)) ∧
      CarriesAt (baleImage b) 5
        (byte2 (b.formed.isSome.toNat + 2 * b.netStarted.isSome.toNat + 4 * b.netted.isSome.toNat +
          8 * b.ejected.isSome.toNat + 16 * b.arrived.isSome.toNat + 32 * b.wrapped.isSome.toNat +
          64 * b.closed.isSome.toNat + 128 * b.moistureMean.isSome.toNat + 256 * b.net.isSome.toNat +
          512 * b.netTurns.isSome.toNat + 1024 * b.wrap.isSome.toNat)) ∧
      CarriesAt (baleImage b) 7
        (byte2 (b.flags.underwrapped.toNat + 2 * b.flags.forcedTip.toNat + 4 * b.flags.uncommandedTip.toNat +
          8 * b.flags.transferFault.toNat + 16 * b.flags.stopSeen.toNat + 32 * b.flags.staleSensor.toNat +
          64 * b.flags.overpressureSeen.toNat + 128 * b.flags.moistureUnknown.toNat + 256 * b.flags.filmShort.toNat))) ∧
    (CarriesAt (baleImage b) 9 (byte4 b.opened) ∧ CarriesAt (baleImage b) 13 (byte4 (b.formed.getD 0)) ∧
      CarriesAt (baleImage b) 17 (byte4 (b.netStarted.getD 0)) ∧ CarriesAt (baleImage b) 21 (byte4 (b.netted.getD 0)) ∧
      CarriesAt (baleImage b) 25 (byte4 (b.ejected.getD 0)) ∧ CarriesAt (baleImage b) 29 (byte4 (b.arrived.getD 0)) ∧
      CarriesAt (baleImage b) 33 (byte4 (b.wrapped.getD 0)) ∧ CarriesAt (baleImage b) 37 (byte4 (b.closed.getD 0))) ∧
    (CarriesAt (baleImage b) 41 (byte4 b.moistureSum) ∧ CarriesAt (baleImage b) 45 (byte2 b.moistureCount) ∧
      CarriesAt (baleImage b) 47 (byte2 (b.moistureMean.getD 0)) ∧ CarriesAt (baleImage b) 49 (byte2 b.peakPressure) ∧
      CarriesAt (baleImage b) 51 (byte1 b.netAttempts) ∧
      CarriesAt (baleImage b) 52 (byte2 ((b.net.map NetFields.diameter).getD 0)) ∧
      CarriesAt (baleImage b) 54 (byte2 ((b.net.map NetFields.circ).getD 0)) ∧
      CarriesAt (baleImage b) 56 (byte4 ((b.net.map NetFields.target).getD 0)) ∧
      CarriesAt (baleImage b) 60 (byte4 ((b.net.map NetFields.metered).getD 0)) ∧
      CarriesAt (baleImage b) 64 (byte1 (b.netTurns.getD 0)) ∧
      CarriesAt (baleImage b) 65 (byte1 b.ejectRequested.toNat)) ∧
    (CarriesAt (baleImage b) 66 (byte2 b.recipe.targetDiameter) ∧ CarriesAt (baleImage b) 68 (byte2 b.recipe.dc) ∧
      CarriesAt (baleImage b) 70 (byte2 b.recipe.pc) ∧ CarriesAt (baleImage b) 72 (byte2 b.recipe.ps) ∧
      CarriesAt (baleImage b) 74 (byte2 b.recipe.r) ∧ CarriesAt (baleImage b) 76 (byte1 b.recipe.nt) ∧
      CarriesAt (baleImage b) 77 (byte2 b.recipe.tail) ∧ CarriesAt (baleImage b) 79 (byte2 b.recipe.m1) ∧
      CarriesAt (baleImage b) 81 (byte2 b.recipe.m2) ∧ CarriesAt (baleImage b) 83 (byte1 b.recipe.l1) ∧
      CarriesAt (baleImage b) 84 (byte1 b.recipe.l2) ∧ CarriesAt (baleImage b) 85 (byte1 b.recipe.l3) ∧
      CarriesAt (baleImage b) 86 (byte2 b.recipe.neck) ∧ CarriesAt (baleImage b) 88 (byte1 b.recipe.s) ∧
      CarriesAt (baleImage b) 89 (byte1 b.recipe.maxRevs)) ∧
    ∀ w, b.wrap = some w →
      (CarriesAt (baleImage b) 90 (byte1 w.layerTarget) ∧ CarriesAt (baleImage b) 91 (byte2 w.circ) ∧
        CarriesAt (baleImage b) 93 (byte2 w.surfacePos) ∧ CarriesAt (baleImage b) 95 (byte1 w.revolutions) ∧
        CarriesAt (baleImage b) 96 (byte2 w.lays1) ∧ CarriesAt (baleImage b) 98 (byte2 w.lays2) ∧
        CarriesAt (baleImage b) 100 (byte4 w.film1) ∧ CarriesAt (baleImage b) 104 (byte4 w.film2) ∧
        CarriesAt (baleImage b) 108 (byte1 w.breakCount) ∧ CarriesAt (baleImage b) 109 (byte1 w.breaks.length) ∧
        CarriesAt (baleImage b) 110 (w.layers.map (fun n => BitVec.ofNat 8 n))) ∧
      ∀ k e, w.layers.length = 64 → w.breaks[k]? = some e →
        CarriesAt (baleImage b) (174 + 8 * k)
          (byte1 (match e.dispenser with | .one => 1 | .two => 2) ++ byte1 e.revolutions ++ byte2 e.surfacePos ++
            byte4 e.time)

/-! ### Notices -/

/-- R170: a bid is priority × 64 + source code × 4 + instance; no two bids on a port are equal; the winner is the greatest,
so no bidding notice has a higher priority; without a bid there is no winner. The priority is the plan's, that of REPORTS
the lesser of 255 and the base + 8 × the report count; what bids is what is active and in the port's mask. -/
def Obligations.WinnerIsTheGreatestBid : Prop :=
  ∀ (s : State) (p : Port),
    (s.bidders p = [] → s.winner p = none) ∧
    (s.bidders p ≠ [] → ∃ n ∈ s.bidders p, s.winner p = some n ∧
      ∀ m ∈ s.bidders p, m.priority ≤ n.priority ∧
        m.priority * 64 + m.source.code * 4 + m.inst.val ≤ n.priority * 64 + n.source.code * 4 + n.inst.val) ∧
    (s.bidders p).Pairwise (fun m n => m.bid ≠ n.bid) ∧
    (∀ n ∈ s.bidders p,
      n.priority =
        (if n.source = .reports then min 255 ((s.na.get p).plan.reportsBase + 8 * s.rq.queue.length)
        else (s.na.get p).plan.priorities.get n.source) ∧
      4 ≤ n.bid ∧ (n.priority ≤ 255 → n.bid ≤ 16383)) ∧
    ∀ src i d, (∃ n ∈ s.bidders p, n.source = src ∧ n.inst = i ∧ n.detail = d) ↔
      ((s.na.get p).plan.mask.get src = true ∧
        ((src.isLatch = true ∧ s.latch p src i = some d) ∨
          (src.isLatch = false ∧ i = 0 ∧ activeCondition s p src = some d)))

/-- TAKE NOTICE (R172): the winner above the threshold becomes the current notice, NONE otherwise; it is returned with the
line. No latch is touched. -/
def Obligations.TakeNotice : Prop :=
  ∀ (p : Port) (s : State), s.nrstAsserted = false →
    Runs (.takeNotice p []) s (fun t =>
      (∀ n, (beforeTake p 0x08 s).winner p = some n → (s.na.get p).plan.threshold < n.priority →
        (t.na.get p).current = some n ∧
        Answered p .takeNotice .ok
          (byte1 n.source.code ++ byte1 n.inst.val ++ byte1 n.priority ++ byte2 n.detail ++ flag1 true) t) ∧
      ((∀ n, (beforeTake p 0x08 s).winner p = some n → n.priority ≤ (s.na.get p).plan.threshold) →
        (t.na.get p).current = none ∧
        Answered p .takeNotice .ok (byte1 0 ++ byte1 0 ++ byte1 0 ++ byte2 0 ++ flag1 false) t) ∧
      (∀ q src i, t.latch q src i = (beforeTake p 0x08 s).latch q src i) ∧
      (∀ q, (t.na.get q).plan = (s.na.get q).plan ∧ (q ≠ p → (t.na.get q).current = (s.na.get q).current)) ∧
      OnlyChanges (.arbiter p :: takeBlocks p s) s t)

/-- ACK NOTICE (R174) and ACK CURRENT (R175): a set place of the named source and instance is cleared on the sending port
alone; a clear place and a condition stay; the mark and the line are returned. A source code of 0 or above 15, an
instance above 3 and a current notice of NONE are refused. -/
def Obligations.Acknowledge : Prop :=
  ∀ (p : Port) (s : State), s.nrstAsserted = false →
    (∀ a b : Byte, (a.toNat = 0 ∨ 15 < a.toNat ∨ 3 < b.toNat) →
      Runs (.ackNotice p [a, b]) s (Refused p .ackNotice .badValue s)) ∧
    (∀ (a b : Byte) (src : Source) (i : Fin 4), a.toNat = src.code → b.toNat = i.val →
      Runs (.ackNotice p [a, b]) s (Acknowledges p .ackNotice src i (beforeTake p 0x09 s) s)) ∧
    ((s.na.get p).current = none → Runs (.ackCurrent p []) s (Refused p .ackCurrent .notReady s)) ∧
    ∀ n, (s.na.get p).current = some n →
      Runs (.ackCurrent p []) s (Acknowledges p .ackCurrent n.source n.inst (beforeTake p 0x0B s) s)

/-- SET NOTICE PLAN (R177, R178): every altered item is replaced, every other kept, the trigger level by the rule of R177;
no latch and no current notice is touched; the whole plan, the replaced mark and the line are returned. The byte for
REPORTS among the returned priorities is not stated by the spec: the statement holds for any (log entry 8). Marks that
number no item are disregarded (log entry 15). -/
def Obligations.SetNoticePlan : Prop :=
  ∀ (p : Port) (pl : List Byte) (s : State), s.nrstAsserted = false → pl.length = 23 →
    Runs (.setNoticePlan p pl) s (fun t =>
      (∀ src, (t.na.get p).plan.mask.get src =
        if (pl.getD 2 0).getLsbD 0 then (nat2 pl 3).testBit src.code else (s.na.get p).plan.mask.get src) ∧
      (∀ src, src ≠ .reports → (t.na.get p).plan.priorities.get src =
        if (nat1 pl 0 * 65536 + nat2 pl 1).testBit src.code then nat1 pl (4 + src.code)
        else (s.na.get p).plan.priorities.get src) ∧
      (t.na.get p).plan.reportsBase =
        (if (pl.getD 0 0).getLsbD 0 then nat1 pl 20 else (s.na.get p).plan.reportsBase) ∧
      (t.na.get p).plan.trigger =
        (if (pl.getD 0 0).getLsbD 1 then roundedUp [1, 4, 8, 12] 16 (nat1 pl 21) else (s.na.get p).plan.trigger) ∧
      (t.na.get p).plan.threshold =
        (if (pl.getD 0 0).getLsbD 2 then nat1 pl 22 else (s.na.get p).plan.threshold) ∧
      (∃ x : Byte, Answered p .setNoticePlan .ok
        (planBytes (t.na.get p).plan x ++
          flag1 ((pl.getD 0 0).getLsbD 1 && decide (roundedUp [1, 4, 8, 12] 16 (nat1 pl 21) ≠ nat1 pl 21)) ++
          flag1 (t.raised p)) t) ∧
      (t.na.get p).current = (s.na.get p).current ∧
      (∀ q src i, t.latch q src i = (beforeTake p 0x0A s).latch q src i) ∧
      OnlyChanges (.arbiter p :: .freeCount :: takeBlocks p s) s t)

/-! ### Link units -/

/-- READ LINK STATS (R198): the counters of the port as the taking of this command left them, the error latch, the
receiver and the pending mark; a clear flag of 1 then clears the error latch alone; above 1 it is refused. -/
def Obligations.ReadLinkStats : Prop :=
  ∀ (p : Port) (flag : Byte) (s : State), s.nrstAsserted = false →
    (1 < flag.toNat → Runs (.readLinkStats p [flag]) s (Refused p .readLinkStats .badValue s)) ∧
    (flag.toNat ≤ 1 →
      Runs (.readLinkStats p [flag]) s (fun t =>
        (∀ l, p = linePort l →
          Answered p .readLinkStats .ok
            (byte1 (stepSaturating (s.line l).frames 255) ++ byte1 (s.line l).abandoned ++ byte1 (s.line l).framing ++
              byte1 (s.line l).check ++ byte1 (s.line l).pendingLost ++ flag1 (s.line l).errorLatch ++
              byte1 (match (s.line l).rx with | .dozing => 0 | .listening _ _ => 1) ++
              flag1 (s.line l).held.isSome) t ∧
          t.line l = { s.line l with
            tx := (t.line l).tx, frames := stepSaturating (s.line l).frames 255, image := none
            errorLatch := (s.line l).errorLatch && decide (flag.toNat = 0) }) ∧
        (p = .c →
          Answered p .readLinkStats .ok
            (byte1 (stepSaturating s.lc.frames 255) ++ byte1 s.lc.length ++ byte1 s.lc.check ++
              byte1 (if s.lc.buffer.isSome then stepSaturating s.lc.responseLost 255 else s.lc.responseLost) ++
              byte1 0 ++ flag1 (s.lc.errorLatch || s.lc.buffer.isSome) ++ byte1 0 ++ byte1 0) t ∧
          t.lc = { s.lc with
            buffer := t.lc.buffer, readPos := 0, frames := stepSaturating s.lc.frames 255, image := none
            responseLost := if s.lc.buffer.isSome then stepSaturating s.lc.responseLost 255 else s.lc.responseLost
            errorLatch := (s.lc.errorLatch || s.lc.buffer.isSome) && decide (flag.toNat = 0) }) ∧
        OnlyChanges (takeBlocks p s) s t))

/-- PORT RESET (R42, R181, R201): the port's link unit, latches and current notice are cleared, its plan kept, the port
removed from every hold set, with the automatic start where that empties one; OK is answered; all else stays. A port
that holds no channel brings no evaluation (log entry 24); what port C last put on its wires stays (log entry 16). -/
def Obligations.PortReset : Prop :=
  ∀ (p : Port) (s : State), s.nrstAsserted = false →
    Runs (.portReset p []) s (fun t =>
      Answered p .portReset .ok [] t ∧
      (∀ l, p = linePort l → t.line l =
        { rx := .dozing, tx := (t.line l).tx, held := none, image := none, frames := 0, abandoned := 0, framing := 0,
          check := 0, pendingLost := 0, errorLatch := false }) ∧
      (p = .c → t.lc =
        { buffer := t.lc.buffer, readPos := 0, acks := s.lc.acks, sda := s.lc.sda, image := none, frames := 0,
          length := 0, check := 0, responseLost := 0, errorLatch := false }) ∧
      (∀ src i, t.latch p src i = none) ∧ (t.na.get p).current = none ∧ (t.na.get p).plan = (s.na.get p).plan ∧
      (∀ ch, Releases p (s.mf.get ch) (t.mf.get ch)) ∧
      OnlyChanges [.link p, .arbiter p, .mf] s t)

/-! ### Channel commands -/

/-- HOLD ZERO and RELEASE ZERO (R38): the port added to or removed from the channel's hold set, with the automatic start
(R35) where a removal empties it (log entry 24); the debt, hold set and zeroing as they then stand are returned. PREZERO
(R39): BUSY while a cycle runs, NOT_READY at a debt of -8, else a cycle begins (R36), whatever the hold set. -/
def Obligations.ZeroCommands : Prop :=
  ∀ (p : Port) (n : Byte) (s : State), s.nrstAsserted = false →
    (2 < n.toNat →
      Runs (.holdZero p [n]) s (Refused p .holdZero .badValue s) ∧
      Runs (.releaseZero p [n]) s (Refused p .releaseZero .badValue s) ∧
      Runs (.prezero p [n]) s (Refused p .prezero .badValue s)) ∧
    ∀ ch, n.toNat = channelNumber ch →
      Runs (.holdZero p [n]) s (fun t =>
        (t.mf.get ch).hold.has p = true ∧ (∀ q, q ≠ p → (t.mf.get ch).hold.has q = (s.mf.get ch).hold.has q) ∧
        t.mf.get ch = { s.mf.get ch with hold := (t.mf.get ch).hold } ∧
        (∀ c, c ≠ ch → t.mf.get c = s.mf.get c) ∧
        Answered p .holdZero .ok (zeroItems (t.mf.get ch)) t ∧ OnlyChanges (.mf :: takeBlocks p s) s t) ∧
      Runs (.releaseZero p [n]) s (fun t =>
        Releases p (s.mf.get ch) (t.mf.get ch) ∧ (∀ c, c ≠ ch → t.mf.get c = s.mf.get c) ∧
        Answered p .releaseZero .ok (zeroItems (t.mf.get ch)) t ∧ OnlyChanges (.mf :: takeBlocks p s) s t) ∧
      ((s.mf.get ch).zeroing = true → Runs (.prezero p [n]) s (Refused p .prezero .busy s)) ∧
      ((s.mf.get ch).zeroing = false → (s.mf.get ch).debt = -8 →
        Runs (.prezero p [n]) s (Refused p .prezero .notReady s)) ∧
      ((s.mf.get ch).zeroing = false → -8 < (s.mf.get ch).debt →
        Runs (.prezero p [n]) s (fun t =>
          t.mf.get ch = { s.mf.get ch with zeroing := true, stale := true, convTimer := .stopped } ∧
          (∀ c, c ≠ ch → t.mf.get c = s.mf.get c) ∧
          Answered p .prezero .ok (signed1 (s.mf.get ch).debt) t ∧ OnlyChanges (.mf :: takeBlocks p s) s t))

/-! ### Commands on bales -/

/-- OPEN BALE (R11, R14 to R17): its checks in order, and the record it appends: FORMING where the chamber is empty and the
tailgate closed, GATHERING otherwise, with the slot's contents and the counter's value; the counter then steps past every
live `seq`. DUMP PRECHAMBER (R18): its checks in order, and the GATHERING record's move to FORMING. -/
def Obligations.OpenBaleAndDumpPrechamber : Prop :=
  (∀ (n : Byte) (s : State), s.nrstAsserted = false → s.rs.slots.length = 8 →
     (7 < n.toNat → Runs (.openBale .a [n]) s (Refused .a .openBale .badValue s)) ∧
     ∀ x, s.rs.slots[n.toNat]? = some x →
       (s.mi.stop.filtered = true → Runs (.openBale .a [n]) s (Refused .a .openBale .stopped s)) ∧
       (s.mi.stop.filtered = false → x.valid = false →
         Runs (.openBale .a [n]) s (Refused .a .openBale .invalidRecipe s)) ∧
       (s.mi.stop.filtered = false → x.valid = true → (s.recordIn .pre).isSome = true →
         Runs (.openBale .a [n]) s (Refused .a .openBale .occupied s)) ∧
       (s.mi.stop.filtered = false → x.valid = true → s.recordIn .pre = none →
         Runs (.openBale .a [n]) s (fun t =>
           t.bt.bales = s.bt.bales ++ [openedBale s n.toNat x.recipe] ∧
           (s.bt.bales.length ≤ 2 → 1 ≤ s.bt.seqCounter → s.bt.seqCounter ≤ 65535 →
             t.bt.seqCounter ∉ t.bt.bales.map Bale.seq ∧ 1 ≤ t.bt.seqCounter ∧ t.bt.seqCounter ≤ 65535) ∧
           (nextSeq s.bt.seqCounter ∉ s.bt.seqCounter :: s.bt.bales.map Bale.seq →
             t.bt.seqCounter = nextSeq s.bt.seqCounter) ∧
           t.bt.runClock = s.bt.runClock ∧
           ((openedBale s n.toNat x.recipe).stage = .forming →
             ChamberBecomes (some (openedBale s n.toNat x.recipe))
               (codeFor s.rs.constants x.recipe s.mf.d.value) s.cu.netCatchTimer s t) ∧
           ((openedBale s n.toNat x.recipe).stage = .gathering → DriveInv s → t.cu = s.cu) ∧
           Hands (stageSettings (openedBale s n.toNat x.recipe).stage.zone s.bt.seqCounter) s t ∧
           Answered .a .openBale .ok
             (byte2 s.bt.seqCounter ++ byte1 (openedBale s n.toNat x.recipe).stage.code) t ∧
           OnlyChanges (.bt :: .cu :: .link .a :: arbiters) s t))) ∧
  (∀ s : State, s.nrstAsserted = false →
     (s.recordIn .pre = none → Runs (.dumpPrechamber .a []) s (Refused .a .dumpPrechamber .noSuchBale s)) ∧
     ∀ (older younger : List Bale) (b : Bale), s.HoldsIn .pre older b younger →
       ((s.recordIn .chamber).isSome = true → Runs (.dumpPrechamber .a []) s (Refused .a .dumpPrechamber .occupied s)) ∧
       (s.recordIn .chamber = none → s.mi.tailgate.filtered = false →
         Runs (.dumpPrechamber .a []) s (Refused .a .dumpPrechamber .notReady s)) ∧
       (s.recordIn .chamber = none → s.mi.tailgate.filtered = true → s.mi.stop.filtered = true →
         Runs (.dumpPrechamber .a []) s (Refused .a .dumpPrechamber .stopped s)) ∧
       (s.recordIn .chamber = none → s.mi.tailgate.filtered = true → s.mi.stop.filtered = false →
         Runs (.dumpPrechamber .a []) s (fun t =>
           BalesBecome (older ++
             { b with stage := .forming, formed := some (b.formed.getD s.bt.runClock) } :: younger) s t ∧
           ChamberBecomes (some { b with stage := .forming }) (codeFor s.rs.constants b.recipe s.mf.d.value)
             s.cu.netCatchTimer s t ∧
           Hands (stageSettings .chamber b.seq) s t ∧
           Answered .a .dumpPrechamber .ok (byte2 b.seq) t ∧
           OnlyChanges (.bt :: .cu :: .link .a :: arbiters) s t)))

/-- DISCARD BALE (R19, R22, R24, R157): NO_SUCH_BALE, the reach of the port, and the closure with its reason, report (its
other fields as they stood, log entry 11), STAGE settings and neighbours; where the table record goes and only the
reservation held back a waiting request, that request is granted within the closure (R93). -/
def Obligations.DiscardBale : Prop :=
  ∀ (p : Port) (hi lo : Byte) (s : State), s.nrstAsserted = false → p ≠ .c → ZonesFall s →
    (s.recordOf (hi.toNat * 256 + lo.toNat) = none →
      Runs (.discardBale p [hi, lo]) s (Refused p .discardBale .noSuchBale s)) ∧
    ∀ b, s.recordOf (hi.toNat * 256 + lo.toNat) = some b →
      ((p = .a ∧ 4 < b.stage.code) ∨ (p = .b ∧ b.stage.code < 4) →
        Runs (.discardBale p [hi, lo]) s (Refused p .discardBale .notPermitted s)) ∧
      ((p = .a ∧ b.stage.code ≤ 4) ∨ (p = .b ∧ 4 ≤ b.stage.code) →
        ¬ (b.stage.zone = .table ∧ s.WaitingRequest ∧ s.hu.tableHold = false ∧ s.mi.stop.filtered = false) →
        Runs (.discardBale p [hi, lo]) s (fun t =>
          (∃ older younger, s.HoldsIn b.stage.zone older b younger ∧ BalesBecome (older ++ younger) s t) ∧
          Arrives (b.closedBy (if b.stage = .ejecting then .lostInTransfer else .discarded) s.bt.runClock) s.rq t.rq ∧
          Hands (stageSettings b.stage.zone b.seq) s t ∧
          (b.stage.zone = .pre → OnlyChanges (.bt :: .rq :: .link p :: arbiters) s t) ∧
          (b.stage.zone = .chamber →
            t.cu = { s.cu with dvCode := 0, baleFull := false, netCatchTimer := .stopped } ∧
            t.hu = { s.hu with ejectSlot := if s.hu.ejectSlot = some b.seq then none else s.hu.ejectSlot } ∧
            OnlyChanges (.bt :: .rq :: .cu :: .hu :: .link p :: arbiters) s t) ∧
          (b.stage.zone = .table →
            t.hu = { s.hu with reservation := none, transferTimer := .stopped } ∧
            OnlyChanges (.bt :: .rq :: .hu :: .link p :: arbiters) s t) ∧
          Answered p .discardBale .ok (byte2 b.seq ++ byte1 (if b.stage = .ejecting then 4 else 2)) t)) ∧
      ∀ (c : Bale) (rest : List Bale), (p = .a ∧ b.stage = .ejecting) ∨ (p = .b ∧ 4 ≤ b.stage.code) →
        s.bt.bales = b :: c :: rest → c.stage = .netted → s.hu.ejectSlot = some c.seq → s.hu.tableHold = false →
        s.mi.stop.filtered = false →
        Runs (.discardBale p [hi, lo]) s (fun t =>
          BalesBecome (c.granted s.bt.runClock :: rest) s t ∧
          Arrives (b.closedBy (if b.stage = .ejecting then .lostInTransfer else .discarded) s.bt.runClock) s.rq t.rq ∧
          t.hu = s.hu.granted c.seq s.rs.constants ∧
          t.cu = { s.cu with dvCode := 0, baleFull := false } ∧
          Hands (stageSettings .table c.seq ++ [⟨.a, .ejectGrant, 0, c.seq⟩]) s t ∧
          Answered p .discardBale .ok (byte2 b.seq ++ byte1 (if b.stage = .ejecting then 4 else 2)) t ∧
          OnlyChanges (.bt :: .rq :: .cu :: .hu :: .link p :: arbiters) s t)

/-- NET START (R76, R77, R78) and NET ABORT (R83): their checks in order, the net fields of an attempt, the net-catch
timer, and the moves to NETTING and back to FORMING. -/
def Obligations.NetStartAndAbort : Prop :=
  ∀ s : State, s.nrstAsserted = false →
    ((∀ b, s.recordIn .chamber = some b → b.stage ≠ .forming) →
      Runs (.netStart .a []) s (Refused .a .netStart .notReady s)) ∧
    ((∀ b, s.recordIn .chamber = some b → b.stage ≠ .netting) →
      Runs (.netAbort .a []) s (Refused .a .netAbort .notReady s)) ∧
    ∀ (older younger : List Bale) (b : Bale), s.HoldsIn .chamber older b younger →
      (b.stage = .forming → s.mi.stop.filtered = true → Runs (.netStart .a []) s (Refused .a .netStart .stopped s)) ∧
      (b.stage = .forming → s.mi.stop.filtered = false →
        Runs (.netStart .a []) s (fun t =>
          BalesBecome (older ++
            { b with
              net := some (netFieldsFor b.recipe (max 900 (min 1800 s.mf.d.value)))
              netAttempts := stepSaturating b.netAttempts 7
              flags := { b.flags with staleSensor := b.flags.staleSensor || s.mf.d.stale }
              stage := .netting
              netStarted := some s.bt.runClock } :: younger) s t ∧
          t.cu = { s.cu with
            netCatchTimer := .running (s.rs.constants.netCatchTimeout * 100), baleFull := false
            dvCode := driveCode false s.cu.lockout true s.cu.computedCode } ∧
          Hands (stageSettings .chamber b.seq) s t ∧
          Answered .a .netStart .ok
            (byte2 b.seq ++ byte2 (max 900 (min 1800 s.mf.d.value)) ++
              byte4 (netFieldsFor b.recipe (max 900 (min 1800 s.mf.d.value))).target ++
              byte1 (stepSaturating b.netAttempts 7) ++ flag1 s.mf.d.stale) t ∧
          OnlyChanges (.bt :: .cu :: .link .a :: arbiters) s t)) ∧
      (b.stage = .netting → ∀ n, b.net = some n →
        Runs (.netAbort .a []) s (fun t =>
          BalesBecome (older ++
            { b with stage := .forming, formed := some (b.formed.getD s.bt.runClock) } :: younger) s t ∧
          ChamberBecomes (some { b with stage := .forming }) (codeFor s.rs.constants b.recipe s.mf.d.value) .stopped s t ∧
          Hands (stageSettings .chamber b.seq) s t ∧
          Answered .a .netAbort .ok (byte2 b.seq ++ byte4 n.metered) t ∧
          OnlyChanges (.bt :: .cu :: .link .a :: arbiters) s t))

/-- REQUEST EJECT (R90, R91, R92): refused for no such record and for one not NETTED; granted at once with OK and no
EJECT_GRANT where no obstacle stands; otherwise placed in the slot and answered QUEUED with the obstacles' marks. -/
def Obligations.RequestEject : Prop :=
  ∀ (hi lo : Byte) (s : State), s.nrstAsserted = false → ZonesFall s →
    (s.recordOf (hi.toNat * 256 + lo.toNat) = none →
      Runs (.requestEject .a [hi, lo]) s (Refused .a .requestEject .noSuchBale s)) ∧
    (∀ b, s.recordOf (hi.toNat * 256 + lo.toNat) = some b → b.stage ≠ .netted →
      Runs (.requestEject .a [hi, lo]) s (Refused .a .requestEject .notReady s)) ∧
    ∀ (older younger : List Bale) (b : Bale), s.recordOf (hi.toNat * 256 + lo.toNat) = some b → b.stage = .netted →
      s.bt.bales = older ++ b :: younger →
      (s.hu.reservation = none → s.hu.tableHold = false → s.mi.stop.filtered = false →
        Runs (.requestEject .a [hi, lo]) s (fun t =>
          BalesBecome (older ++ b.granted s.bt.runClock :: younger) s t ∧
          t.hu = s.hu.granted b.seq s.rs.constants ∧
          t.cu = { s.cu with dvCode := 0, baleFull := false } ∧
          Hands (stageSettings .table b.seq) s t ∧
          Answered .a .requestEject .ok (byte2 b.seq ++ byte1 0) t ∧
          OnlyChanges (.bt :: .cu :: .hu :: .link .a :: arbiters) s t)) ∧
      (¬ (s.hu.reservation = none ∧ s.hu.tableHold = false ∧ s.mi.stop.filtered = false) →
        Runs (.requestEject .a [hi, lo]) s (fun t =>
          BalesBecome (older ++ { b with ejectRequested := true } :: younger) s t ∧
          t.hu = { s.hu with ejectSlot := some b.seq } ∧
          Answered .a .requestEject .queued
            (byte2 b.seq ++
              byte1 (s.hu.reservation.isSome.toNat + 2 * s.hu.tableHold.toNat + 4 * s.mi.stop.filtered.toNat)) t ∧
          OnlyChanges [.bt, .hu, .link .a] s t))

/-- CANCEL EJECT (R94), HOLD TABLE and FREE TABLE (R95) where nothing is granted: the request withdrawn with its mark,
the hold set or cleared, and what each returns. -/
def Obligations.CancelHoldAndFree : Prop :=
  ∀ (hi lo : Byte) (s : State), s.nrstAsserted = false → ZonesFall s →
    (s.recordOf (hi.toNat * 256 + lo.toNat) = none →
      Runs (.cancelEject .a [hi, lo]) s (Refused .a .cancelEject .noSuchBale s)) ∧
    (∀ b, s.recordOf (hi.toNat * 256 + lo.toNat) = some b → b.stage ≠ .netted →
      Runs (.cancelEject .a [hi, lo]) s (Refused .a .cancelEject .notReady s)) ∧
    (∀ (older younger : List Bale) (b : Bale), s.recordOf (hi.toNat * 256 + lo.toNat) = some b → b.stage = .netted →
      s.bt.bales = older ++ b :: younger →
      Runs (.cancelEject .a [hi, lo]) s (fun t =>
        BalesBecome (older ++ { b with ejectRequested := false } :: younger) s t ∧
        t.hu = { s.hu with ejectSlot := if s.hu.ejectSlot = some b.seq then none else s.hu.ejectSlot } ∧
        Answered .a .cancelEject .ok (byte2 b.seq ++ flag1 (decide (s.hu.ejectSlot = some b.seq))) t ∧
        OnlyChanges [.bt, .hu, .link .a] s t)) ∧
    Runs (.holdTable .b []) s (fun t =>
      t.hu = { s.hu with tableHold := true } ∧
      Answered .b .holdTable .ok
        (flag1 true ++ byte2 (s.hu.reservation.getD 0) ++ byte2 (s.hu.ejectSlot.getD 0)) t ∧
      OnlyChanges [.hu, .link .b] s t) ∧
    (¬ (s.WaitingRequest ∧ s.hu.reservation = none ∧ s.mi.stop.filtered = false) →
      Runs (.freeTable .b []) s (fun t =>
        t.hu = { s.hu with tableHold := false } ∧
        Answered .b .freeTable .ok
          (flag1 false ++ byte2 (s.hu.reservation.getD 0) ++ byte2 (s.hu.ejectSlot.getD 0)) t ∧
        OnlyChanges [.hu, .link .b] s t))

/-- TIP (R125, R126) and ABANDON WRAP (R124): their checks in order; TIPPING from WRAPPED, or from WRAPPING by force with
UNDERWRAPPED and FORCED_TIP and no `wrapped`; WRAPPED with UNDERWRAPPED by an abandon, with no WRAP_DONE. -/
def Obligations.TipAndAbandonWrap : Prop :=
  ∀ (f : Byte) (s : State), s.nrstAsserted = false → DriveInv s → ZonesFall s →
    (1 < f.toNat → Runs (.tip .b [f]) s (Refused .b .tip .badValue s)) ∧
    (f.toNat ≤ 1 →
      (∀ b, s.recordIn .table = some b → b.stage ≠ .wrapped ∧ ¬ (b.stage = .wrapping ∧ f.toNat = 1)) →
      Runs (.tip .b [f]) s (Refused .b .tip .notReady s)) ∧
    ((∀ b, s.recordIn .table = some b → b.stage ≠ .wrapping) →
      Runs (.abandonWrap .b []) s (Refused .b .abandonWrap .notReady s)) ∧
    ∀ (older younger : List Bale) (b : Bale), s.HoldsIn .table older b younger →
      (f.toNat ≤ 1 → b.stage = .wrapped ∨ (b.stage = .wrapping ∧ f.toNat = 1) → s.mi.stop.filtered = true →
        Runs (.tip .b [f]) s (Refused .b .tip .stopped s)) ∧
      (f.toNat ≤ 1 → b.stage = .wrapped → s.mi.stop.filtered = false →
        Runs (.tip .b [f]) s (fun t =>
          BalesBecome (older ++ { b with stage := .tipping } :: younger) s t ∧
          Hands (stageSettings .table b.seq) s t ∧ Answered .b .tip .ok (byte2 b.seq ++ flag1 false) t ∧
          OnlyChanges (.bt :: .link .b :: arbiters) s t)) ∧
      (f.toNat = 1 → b.stage = .wrapping → s.mi.stop.filtered = false →
        Runs (.tip .b [f]) s (fun t =>
          BalesBecome (older ++
            { b with stage := .tipping, flags := { b.flags with underwrapped := true, forcedTip := true } } ::
            younger) s t ∧
          Hands (stageSettings .table b.seq) s t ∧ Answered .b .tip .ok (byte2 b.seq ++ flag1 true) t ∧
          OnlyChanges (.bt :: .link .b :: arbiters) s t)) ∧
      ∀ w low, b.stage = .wrapping → b.wrap = some w → low ∈ w.layers → (∀ n ∈ w.layers, low ≤ n) →
        Runs (.abandonWrap .b []) s (fun t =>
          BalesBecome (older ++
            { b with
              stage := .wrapped, wrapped := some s.bt.runClock, flags := { b.flags with underwrapped := true } } ::
            younger) s t ∧
          Hands (stageSettings .table b.seq) s t ∧
          Answered .b .abandonWrap .ok (byte2 b.seq ++ byte1 low ++ byte1 w.revolutions) t ∧
          OnlyChanges (.bt :: .link .b :: arbiters) s t)

/-! ### Dispensers, stock, recipes, constants, reports -/

/-- RESTORE DISPENSER (R139), WITHDRAW DISPENSER (R140): checks, effect and response, for either dispenser. NEW ROLL (R146,
R147): refused for a roll above 2 and a length of 0; otherwise the stock takes the length, clamped to the roll's range,
and is known; a film roll's residue becomes 0 and an EMPTY dispenser OUT. The state that WITHDRAW DISPENSER returns is the
one before it (R140 and Table 10-3, against R153: log entry 27). -/
def Obligations.DispensersAndRolls : Prop :=
  (∀ (n : Byte) (s : State), s.nrstAsserted = false →
     (n.toNat ≠ 1 → n.toNat ≠ 2 →
       Runs (.restoreDispenser .b [n]) s (Refused .b .restoreDispenser .badValue s) ∧
       Runs (.withdrawDispenser .b [n]) s (Refused .b .withdrawDispenser .badValue s)) ∧
     ∀ k, n.toNat = dispenserNumber k →
       ((s.ds.film.get k).state = .running ∨ (s.ds.film.get k).state = .empty →
         Runs (.restoreDispenser .b [n]) s (Refused .b .restoreDispenser .notReady s)) ∧
       ((s.ds.film.get k).state = .broken ∨ (s.ds.film.get k).state = .out → (s.ds.film.get k).known = true →
         (s.ds.film.get k).stock = 0 →
         Runs (.restoreDispenser .b [n]) s (Refused .b .restoreDispenser .empty s)) ∧
       ((s.ds.film.get k).state = .broken ∨ (s.ds.film.get k).state = .out →
         ¬ ((s.ds.film.get k).known = true ∧ (s.ds.film.get k).stock = 0) →
         Runs (.restoreDispenser .b [n]) s (fun t =>
           t.ds.film.get k = { s.ds.film.get k with state := .running, silence := 0 } ∧
           StockFrame k s t ∧
           Answered .b .restoreDispenser .ok
             (n :: byte1 0 ++ flag1 (s.ds.film.get k).known ++ byte4 (s.ds.film.get k).stock) t ∧
           OnlyChanges [.ds, .link .b] s t)) ∧
       Runs (.withdrawDispenser .b [n]) s (fun t =>
         t.ds.film.get k = { s.ds.film.get k with state := .out } ∧
         StockFrame k s t ∧
         Answered .b .withdrawDispenser .ok (n :: byte1 (s.ds.film.get k).state.code) t ∧
         OnlyChanges [.ds, .link .b] s t)) ∧
  (∀ (roll b3 b2 b1 b0 : Byte) (s : State) (len : Nat), s.nrstAsserted = false →
     len = b3.toNat * 16777216 + b2.toNat * 65536 + b1.toNat * 256 + b0.toNat →
     (2 < roll.toNat ∨ len = 0 → Runs (.newRoll .c [roll, b3, b2, b1, b0]) s (Refused .c .newRoll .badValue s)) ∧
     (roll.toNat = 0 → len ≠ 0 →
       Runs (.newRoll .c [roll, b3, b2, b1, b0]) s (fun t =>
         t.ds = { s.ds with netStock := min len 40000000, netKnown := true } ∧
         Answered .c .newRoll .ok
           (roll :: byte4 (min len 40000000) ++ flag1 (decide (40000000 < len)) ++ byte1 0) t ∧
         OnlyChanges (.ds :: takeBlocks .c s) s t)) ∧
     ∀ k, roll.toNat = dispenserNumber k → len ≠ 0 →
       Runs (.newRoll .c [roll, b3, b2, b1, b0]) s (fun t =>
         t.ds.film.get k = { s.ds.film.get k with
           stock := min len 3000000, known := true, residue := 0
           state := if (s.ds.film.get k).state = .empty then .out else (s.ds.film.get k).state } ∧
         StockFrame k s t ∧
         Answered .c .newRoll .ok
           (roll :: byte4 (min len 3000000) ++ flag1 (decide (3000000 < len)) ++
             byte1 (t.ds.film.get k).state.code) t ∧
         OnlyChanges (.ds :: takeBlocks .c s) s t))

/-- LOAD RECIPE (R54, R55, R56): a slot above 7 is refused; otherwise that slot alone is rebuilt, from its own fields if
valid and the defaults if not, each altered field clamped, M1 lowered to M2, the valid flag as altered; the slot, the
flag and the clamp mask, with mark 0 never set (log entry 12), are returned. -/
def Obligations.LoadRecipe : Prop :=
  ∀ (pl : List Byte) (s : State) (x : RecipeSlot), s.nrstAsserted = false → pl.length = 28 →
    (7 < nat1 pl 0 → Runs (.loadRecipe .c pl) s (Refused .c .loadRecipe .badValue s)) ∧
    (nat1 pl 0 ≤ 7 → s.rs.slots[nat1 pl 0]? = some x →
      Runs (.loadRecipe .c pl) s (fun t =>
        ∃ a valid mask,
          AltersRecipe (if x.valid then x.recipe else defaultRecipe) (readRecipeBlock pl 4) (nat2 pl 1) a ∧
          valid = (if (nat2 pl 1).testBit 0 then decide (nat1 pl 3 ≠ 0) else x.valid) ∧
          t.rs = { s.rs with slots := s.rs.slots.set (nat1 pl 0) ⟨valid, { a with m1 := min a.m1 a.m2 }⟩ } ∧
          Answered .c .loadRecipe .ok (byte1 (nat1 pl 0) ++ flag1 valid ++ byte2 mask) t ∧
          (mask < 65536 ∧ mask.testBit 0 = false) ∧
          (∀ k, 1 ≤ k → k ≤ 15 → (mask.testBit k = true ↔
            ((nat2 pl 1).testBit k = true ∧ recipeField a k ≠ recipeField (readRecipeBlock pl 4) k) ∨
              (k = 8 ∧ a.m2 < a.m1))) ∧
          OnlyChanges (.rs :: takeBlocks .c s) s t))

/-- SET MACHINE (R59, R60, R61): its checks in order; a refused command changes no constant; otherwise each altered item
takes the written value clamped to its range, every other is kept, an `op_hyst` not below `op_limit` becomes `op_limit`
less 1; a changed `table_pulses` clears the angle and both silence counters. Alter marks that number no item are
disregarded (log entry 15). -/
def Obligations.SetMachine : Prop :=
  ∀ (pl : List Byte) (s : State), s.nrstAsserted = false →
    (pl = [] → Runs (.setMachine .c pl) s (Refused .c .setMachine .badLength s)) ∧
    (pl ≠ [] → 3 < nat1 pl 0 → Runs (.setMachine .c pl) s (Refused .c .setMachine .badValue s)) ∧
    (pl ≠ [] → nat1 pl 0 ≤ 3 → pl.length ≠ (if nat1 pl 0 = 3 then 31 else 11) →
      Runs (.setMachine .c pl) s (Refused .c .setMachine .badLength s)) ∧
    (pl.length = (if nat1 pl 0 = 3 then 31 else 11) → nat1 pl 0 ≤ 3 → s.bt.bales ≠ [] →
      Runs (.setMachine .c pl) s (Refused .c .setMachine .busy s)) ∧
    (∀ ch, nat1 pl 0 = channelNumber ch → pl.length = 11 → s.bt.bales = [] →
      ((nat1 pl 1).testBit 1 = true → rawOf pl 3 = rawOf pl 7 →
        Runs (.setMachine .c pl) s (Refused .c .setMachine .badValue s)) ∧
      (¬ ((nat1 pl 1).testBit 1 = true ∧ rawOf pl 3 = rawOf pl 7) →
        Runs (.setMachine .c pl) s (fun t =>
          t.rs.chan.get ch =
            { period := if (nat1 pl 1).testBit 0 then roundedUp [10, 20, 50, 100] 200 (nat1 pl 2)
                else (s.rs.chan.get ch).period
              pair := if (nat1 pl 1).testBit 1 then
                  ⟨rawOf pl 3, min (nat2 pl 5) (channelTop ch), rawOf pl 7, min (nat2 pl 9) (channelTop ch)⟩
                else (s.rs.chan.get ch).pair } ∧
          (∀ c, c ≠ ch → t.rs.chan.get c = s.rs.chan.get c) ∧
          t.rs.slots = s.rs.slots ∧ t.rs.constants = s.rs.constants ∧
          (∃ mask, Answered .c .setMachine .ok (byte1 (nat1 pl 0) ++ byte2 mask) t ∧ mask < 4 ∧
            (mask.testBit 0 = true ↔ (nat1 pl 1).testBit 0 = true ∧ (t.rs.chan.get ch).period ≠ nat1 pl 2) ∧
            (mask.testBit 1 = true ↔ (nat1 pl 1).testBit 1 = true ∧
              (t.rs.chan.get ch).pair ≠ readPairBlock pl 3)) ∧
          OnlyChanges (.rs :: takeBlocks .c s) s t))) ∧
    (nat1 pl 0 = 3 → pl.length = 31 → s.bt.bales = [] →
      Runs (.setMachine .c pl) s (fun t =>
        (∃ a mask, AltersConstants s.rs.constants (readConstantsBlock pl 3) (nat2 pl 1) a ∧
          t.rs.constants = { a with opHyst := if a.opLimit ≤ a.opHyst then a.opLimit - 1 else a.opHyst } ∧
          Answered .c .setMachine .ok (byte1 3 ++ byte2 mask) t ∧ mask < 8192 ∧
          ∀ k, k ≤ 12 → (mask.testBit k = true ↔
            ((nat2 pl 1).testBit k = true ∧
              constantField t.rs.constants k ≠ constantField (readConstantsBlock pl 3) k) ∨
            (k = 8 ∧ a.opLimit ≤ a.opHyst))) ∧
        t.rs.slots = s.rs.slots ∧ t.rs.chan = s.rs.chan ∧
        (t.rs.constants.tablePulses = s.rs.constants.tablePulses → OnlyChanges (.rs :: takeBlocks .c s) s t) ∧
        (t.rs.constants.tablePulses ≠ s.rs.constants.tablePulses →
          t.mi = { s.mi with angle := 0 } ∧
          (∀ k, t.ds.film.get k = { s.ds.film.get k with silence := 0 }) ∧
          t.ds.netStock = s.ds.netStock ∧ t.ds.netKnown = s.ds.netKnown ∧
          OnlyChanges (.rs :: .mi :: .ds :: takeBlocks .c s) s t)))

/-- RELEASE REPORT (R161) and QUEUE STATUS (R163): EMPTY, STALE with the head's `seq`, the removal of the head with a held
report moving to the tail; the queue's figures before any clearing, OVERRUN alone cleared by a flag of 1. The images
of ports A and B stay as they were (R160); port C's own is discarded as RELEASE REPORT is taken, which `RequestTaken` says
and log entry 28 marks as the model's choice. -/
def Obligations.ReleaseReportAndQueueStatus : Prop :=
  ∀ s : State, s.nrstAsserted = false →
    (∀ hi lo : Byte,
      (s.rq.queue = [] → Runs (.releaseReport .c [hi, lo]) s (Refused .c .releaseReport .empty s)) ∧
      ∀ r rest, s.rq.queue = r :: rest →
        (r.seq ≠ hi.toNat * 256 + lo.toNat →
          Runs (.releaseReport .c [hi, lo]) s (fun t =>
            Answered .c .releaseReport .stale (byte2 r.seq) t ∧ OnlyChanges (takeBlocks .c s) s t)) ∧
        (r.seq = hi.toNat * 256 + lo.toNat →
          Runs (.releaseReport .c [hi, lo]) s (fun t =>
            t.rq = { s.rq with queue := rest ++ s.rq.holding.toList, holding := none } ∧
            Answered .c .releaseReport .ok
              (byte2 r.seq ++ byte1 t.rq.queue.length ++ byte1 0 ++
                byte2 ((t.rq.queue.head?.map Bale.seq).getD 0)) t ∧
            OnlyChanges (.rq :: takeBlocks .c s) s t))) ∧
    ∀ (p : Port) (f : Byte),
      (1 < f.toNat → Runs (.queueStatus p [f]) s (Refused p .queueStatus .badValue s)) ∧
      (f.toNat ≤ 1 →
        Runs (.queueStatus p [f]) s (fun t =>
          t.rq = { s.rq with overrun := s.rq.overrun && decide (f.toNat = 0) } ∧
          Answered p .queueStatus .ok
            (byte1 s.rq.queue.length ++ flag1 s.rq.holding.isSome ++ byte2 s.rq.lost ++ flag1 s.rq.overrun ++
              byte2 ((s.rq.queue.head?.map Bale.seq).getD 0)) t ∧
          OnlyChanges (.rq :: takeBlocks p s) s t))

/-! ### Invariants -/

/-- The state after power-on reset meets every invariant below. -/
def Obligations.ResetMeetsTheInvariants : Prop :=
  AttentionInv State.reset ∧ DebtInv State.reset ∧ DriveInv State.reset ∧ HandoverInv State.reset ∧
  TimerInv State.reset ∧ SeqInv State.reset ∧ StockInv State.reset ∧ QueueInv State.reset ∧
  RecipeInv State.reset ∧ WrapInv State.reset

/-- R171: each attention line is asserted exactly when a bidding notice has a priority above the threshold; every step
keeps it so. -/
def Obligations.AttentionIsKept : Prop := ∀ s t, AttentionInv s → step s = .next t → AttentionInv t

/-- R34: the zero debt of every channel lies in -8 to +8, in every step. -/
def Obligations.DebtsStayInRange : Prop := ∀ s t, DebtInv s → step s = .next t → DebtInv t

/-- R69 and R73: no step leaves the valve driven under STOP, under the lockout or with no chamber record, nor BALE_FULL
untrue to its cause. -/
def Obligations.DriveStaysSafe : Prop := ∀ s t, DriveInv s → step s = .next t → DriveInv t

/-- R8, R9, R88, R89: in every step each zone holds at most one record, older records in higher zones; the reservation is
held exactly for the record on the table; the eject slot names exactly the NETTED record that requested. -/
def Obligations.HandoverStaysSound : Prop := ∀ s t, HandoverInv s → step s = .next t → HandoverInv t

/-- In every step: a net-catch timer that is not STOPPED belongs to a NETTING record and a transfer timer to an EJECTING one,
RUNNING only without STOP and SUSPENDED only under it (R81, R96); the live records' `seq` values differ, and the counter
holds none of them (R11). -/
def Obligations.TimersAndSequenceNumbers : Prop :=
  (∀ s t, HandoverInv s ∧ TimerInv s → step s = .next t → TimerInv t) ∧
  (∀ s t, HandoverInv s ∧ SeqInv s → step s = .next t → SeqInv t)

/-- In every step: a RUNNING dispenser never has a known film stock of 0, stocks and silence counters stay in range (R132,
R133); at most sixteen reports queue, and the holding slot is occupied only behind sixteen (R154, R157). -/
def Obligations.StocksAndReportsStaySound : Prop :=
  (∀ s t, StockInv s → step s = .next t → StockInv t) ∧
  (∀ s t, QueueInv s → step s = .next t → QueueInv t)

/-- R53, R58, R60, R63: recipes, snapshots and constants stay within their ranges, M1 not above M2, `op_hyst` below
`op_limit`, the two raw codes of a pair different, the table angle below Tp. -/
def Obligations.RecipesAndConstantsStayLegal : Prop := ∀ s t, RecipeInv s → step s = .next t → RecipeInv t

/-- R103, R111, R116, R137: in every step a wrap section keeps every field in the range of Table 6-1. A film total past its
range is a free value of 32 bits (log entry 26). -/
def Obligations.WrapSectionsStayInRange : Prop :=
  ∀ s t, RecipeInv s ∧ HandoverInv s ∧ WrapInv s → step s = .next t → WrapInv t
end

