-- ==== Sys2Proof/Laws/Access.lean ====
section
/-! SUPPORT. Reading back what an accessor wrote, for data kept per port, channel, dispenser, source and latch place. -/

namespace Sys2Proof.Machine

variable {α : Type}

@[simp] theorem PerPort.get_set (x : PerPort α) (p q : Port) (v : α) :
    (x.set p v).get q = if q = p then v else x.get q := by
  cases p <;> cases q <;> rfl

@[simp] theorem PerChannel.get_set (x : PerChannel α) (c d : Channel) (v : α) :
    (x.set c v).get d = if d = c then v else x.get d := by
  cases c <;> cases d <;> rfl

@[simp] theorem PerDispenser.get_set (x : PerDispenser α) (k j : Dispenser) (v : α) :
    (x.set k v).get j = if j = k then v else x.get j := by
  cases k <;> cases j <;> rfl

theorem PerSource.get_set_same (x : PerSource α) (a : Source) (v : α) : (x.set a v).get a = v := by
  cases a <;> rfl

theorem PerSource.get_set_ne (x : PerSource α) {a b : Source} (v : α) (h : b ≠ a) : (x.set a v).get b = x.get b := by
  cases a <;> first | (cases b <;> first | rfl | exact absurd rfl h)

@[simp] theorem PerSource.get_set (x : PerSource α) (a b : Source) (v : α) :
    (x.set a v).get b = if b = a then v else x.get b := by
  by_cases h : b = a
  · subst h; simp [PerSource.get_set_same]
  · simp [PerSource.get_set_ne x v h, h]

@[simp] theorem PerSource.get_make (f : Source → α) (a : Source) : (PerSource.make f).get a = f a := by
  cases a <;> rfl

@[simp] theorem Places.get_set (x : Places) (i j : Fin 4) (v : Option Nat) :
    (x.set i v).get j = if j = i then v else x.get j := by
  match i, j with
  | 0, 0 => rfl
  | 0, 1 => rfl
  | 0, 2 => rfl
  | 0, 3 => rfl
  | 1, 0 => rfl
  | 1, 1 => rfl
  | 1, 2 => rfl
  | 1, 3 => rfl
  | 2, 0 => rfl
  | 2, 1 => rfl
  | 2, 2 => rfl
  | 2, 3 => rfl
  | 3, 0 => rfl
  | 3, 1 => rfl
  | 3, 2 => rfl
  | 3, 3 => rfl

@[simp] theorem PortSet.has_put (x : PortSet) (p q : Port) (v : Bool) :
    (x.put p v).has q = if q = p then v else x.has q := by
  cases p <;> cases q <;> rfl

/-- A hold set is empty exactly when no port is in it. -/
theorem PortSet.isEmpty_iff (x : PortSet) : x.isEmpty = true ↔ x = ⟨false, false, false⟩ := by
  rcases x with ⟨a, b, c⟩
  cases a <;> cases b <;> cases c <;> decide

/-- A dispenser's two records are the two of the pair. -/
theorem PerDispenser.ext_get {x y : PerDispenser α} (h : ∀ k, x.get k = y.get k) : x = y := by
  have h1 := h .one
  have h2 := h .two
  cases x; cases y
  simp_all [PerDispenser.get]

end Sys2Proof.Machine
end

