-- ==== Sys2Proof/Laws/State.lean ====
section
/-! SUPPORT. What each named update leaves as it was: one lemma for each field of State an operation does not touch, so
that no later proof unfolds a record update. -/

namespace Sys2Proof.Machine

/-! ### Records -/

@[simp] theorem State.modifyRecord_pending (s : State) (z : Zone) (f : Bale → Bale) :
    (s.modifyRecord z f).pending = s.pending := rfl
@[simp] theorem State.modifyRecord_nrstAsserted (s : State) (z : Zone) (f : Bale → Bale) :
    (s.modifyRecord z f).nrstAsserted = s.nrstAsserted := rfl
@[simp] theorem State.modifyRecord_straps (s : State) (z : Zone) (f : Bale → Bale) :
    (s.modifyRecord z f).straps = s.straps := rfl
@[simp] theorem State.modifyRecord_mf (s : State) (z : Zone) (f : Bale → Bale) : (s.modifyRecord z f).mf = s.mf := rfl
@[simp] theorem State.modifyRecord_mi (s : State) (z : Zone) (f : Bale → Bale) : (s.modifyRecord z f).mi = s.mi := rfl
@[simp] theorem State.modifyRecord_rs (s : State) (z : Zone) (f : Bale → Bale) : (s.modifyRecord z f).rs = s.rs := rfl
@[simp] theorem State.modifyRecord_cu (s : State) (z : Zone) (f : Bale → Bale) : (s.modifyRecord z f).cu = s.cu := rfl
@[simp] theorem State.modifyRecord_hu (s : State) (z : Zone) (f : Bale → Bale) : (s.modifyRecord z f).hu = s.hu := rfl
@[simp] theorem State.modifyRecord_ds (s : State) (z : Zone) (f : Bale → Bale) : (s.modifyRecord z f).ds = s.ds := rfl
@[simp] theorem State.modifyRecord_rq (s : State) (z : Zone) (f : Bale → Bale) : (s.modifyRecord z f).rq = s.rq := rfl
@[simp] theorem State.modifyRecord_na (s : State) (z : Zone) (f : Bale → Bale) : (s.modifyRecord z f).na = s.na := rfl
@[simp] theorem State.modifyRecord_la (s : State) (z : Zone) (f : Bale → Bale) : (s.modifyRecord z f).la = s.la := rfl
@[simp] theorem State.modifyRecord_lb (s : State) (z : Zone) (f : Bale → Bale) : (s.modifyRecord z f).lb = s.lb := rfl
@[simp] theorem State.modifyRecord_lc (s : State) (z : Zone) (f : Bale → Bale) : (s.modifyRecord z f).lc = s.lc := rfl
@[simp] theorem State.modifyRecord_freeCount (s : State) (z : Zone) (f : Bale → Bale) :
    (s.modifyRecord z f).freeCount = s.freeCount := rfl

@[simp] theorem State.flagRecord_pending (s : State) (z : Zone) (f : RecordFlags → RecordFlags) :
    (s.flagRecord z f).pending = s.pending := rfl
@[simp] theorem State.flagRecord_nrstAsserted (s : State) (z : Zone) (f : RecordFlags → RecordFlags) :
    (s.flagRecord z f).nrstAsserted = s.nrstAsserted := rfl
@[simp] theorem State.flagRecord_straps (s : State) (z : Zone) (f : RecordFlags → RecordFlags) :
    (s.flagRecord z f).straps = s.straps := rfl
@[simp] theorem State.flagRecord_mf (s : State) (z : Zone) (f : RecordFlags → RecordFlags) :
    (s.flagRecord z f).mf = s.mf := rfl
@[simp] theorem State.flagRecord_mi (s : State) (z : Zone) (f : RecordFlags → RecordFlags) :
    (s.flagRecord z f).mi = s.mi := rfl
@[simp] theorem State.flagRecord_rs (s : State) (z : Zone) (f : RecordFlags → RecordFlags) :
    (s.flagRecord z f).rs = s.rs := rfl
@[simp] theorem State.flagRecord_cu (s : State) (z : Zone) (f : RecordFlags → RecordFlags) :
    (s.flagRecord z f).cu = s.cu := rfl
@[simp] theorem State.flagRecord_hu (s : State) (z : Zone) (f : RecordFlags → RecordFlags) :
    (s.flagRecord z f).hu = s.hu := rfl
@[simp] theorem State.flagRecord_ds (s : State) (z : Zone) (f : RecordFlags → RecordFlags) :
    (s.flagRecord z f).ds = s.ds := rfl
@[simp] theorem State.flagRecord_rq (s : State) (z : Zone) (f : RecordFlags → RecordFlags) :
    (s.flagRecord z f).rq = s.rq := rfl
@[simp] theorem State.flagRecord_na (s : State) (z : Zone) (f : RecordFlags → RecordFlags) :
    (s.flagRecord z f).na = s.na := rfl
@[simp] theorem State.flagRecord_la (s : State) (z : Zone) (f : RecordFlags → RecordFlags) :
    (s.flagRecord z f).la = s.la := rfl
@[simp] theorem State.flagRecord_lb (s : State) (z : Zone) (f : RecordFlags → RecordFlags) :
    (s.flagRecord z f).lb = s.lb := rfl
@[simp] theorem State.flagRecord_lc (s : State) (z : Zone) (f : RecordFlags → RecordFlags) :
    (s.flagRecord z f).lc = s.lc := rfl
@[simp] theorem State.flagRecord_freeCount (s : State) (z : Zone) (f : RecordFlags → RecordFlags) :
    (s.flagRecord z f).freeCount = s.freeCount := rfl

@[simp] theorem State.modifyWrap_pending (s : State) (f : WrapSection → WrapSection) :
    (s.modifyWrap f).pending = s.pending := rfl
@[simp] theorem State.modifyWrap_nrstAsserted (s : State) (f : WrapSection → WrapSection) :
    (s.modifyWrap f).nrstAsserted = s.nrstAsserted := rfl
@[simp] theorem State.modifyWrap_straps (s : State) (f : WrapSection → WrapSection) :
    (s.modifyWrap f).straps = s.straps := rfl
@[simp] theorem State.modifyWrap_mf (s : State) (f : WrapSection → WrapSection) : (s.modifyWrap f).mf = s.mf := rfl
@[simp] theorem State.modifyWrap_mi (s : State) (f : WrapSection → WrapSection) : (s.modifyWrap f).mi = s.mi := rfl
@[simp] theorem State.modifyWrap_rs (s : State) (f : WrapSection → WrapSection) : (s.modifyWrap f).rs = s.rs := rfl
@[simp] theorem State.modifyWrap_cu (s : State) (f : WrapSection → WrapSection) : (s.modifyWrap f).cu = s.cu := rfl
@[simp] theorem State.modifyWrap_hu (s : State) (f : WrapSection → WrapSection) : (s.modifyWrap f).hu = s.hu := rfl
@[simp] theorem State.modifyWrap_ds (s : State) (f : WrapSection → WrapSection) : (s.modifyWrap f).ds = s.ds := rfl
@[simp] theorem State.modifyWrap_rq (s : State) (f : WrapSection → WrapSection) : (s.modifyWrap f).rq = s.rq := rfl
@[simp] theorem State.modifyWrap_na (s : State) (f : WrapSection → WrapSection) : (s.modifyWrap f).na = s.na := rfl
@[simp] theorem State.modifyWrap_la (s : State) (f : WrapSection → WrapSection) : (s.modifyWrap f).la = s.la := rfl
@[simp] theorem State.modifyWrap_lb (s : State) (f : WrapSection → WrapSection) : (s.modifyWrap f).lb = s.lb := rfl
@[simp] theorem State.modifyWrap_lc (s : State) (f : WrapSection → WrapSection) : (s.modifyWrap f).lc = s.lc := rfl
@[simp] theorem State.modifyWrap_freeCount (s : State) (f : WrapSection → WrapSection) :
    (s.modifyWrap f).freeCount = s.freeCount := rfl

@[simp] theorem flagStopSeen_pending (s : State) : (flagStopSeen s).pending = s.pending := rfl
@[simp] theorem flagStopSeen_nrstAsserted (s : State) : (flagStopSeen s).nrstAsserted = s.nrstAsserted := rfl
@[simp] theorem flagStopSeen_straps (s : State) : (flagStopSeen s).straps = s.straps := rfl
@[simp] theorem flagStopSeen_mf (s : State) : (flagStopSeen s).mf = s.mf := rfl
@[simp] theorem flagStopSeen_mi (s : State) : (flagStopSeen s).mi = s.mi := rfl
@[simp] theorem flagStopSeen_rs (s : State) : (flagStopSeen s).rs = s.rs := rfl
@[simp] theorem flagStopSeen_cu (s : State) : (flagStopSeen s).cu = s.cu := rfl
@[simp] theorem flagStopSeen_hu (s : State) : (flagStopSeen s).hu = s.hu := rfl
@[simp] theorem flagStopSeen_ds (s : State) : (flagStopSeen s).ds = s.ds := rfl
@[simp] theorem flagStopSeen_rq (s : State) : (flagStopSeen s).rq = s.rq := rfl
@[simp] theorem flagStopSeen_na (s : State) : (flagStopSeen s).na = s.na := rfl
@[simp] theorem flagStopSeen_la (s : State) : (flagStopSeen s).la = s.la := rfl
@[simp] theorem flagStopSeen_lb (s : State) : (flagStopSeen s).lb = s.lb := rfl
@[simp] theorem flagStopSeen_lc (s : State) : (flagStopSeen s).lc = s.lc := rfl
@[simp] theorem flagStopSeen_freeCount (s : State) : (flagStopSeen s).freeCount = s.freeCount := rfl

/-! ### Channels, inputs, dispensers -/

@[simp] theorem State.modifyChannel_pending (s : State) (c : Channel) (f : ChannelRecord → ChannelRecord) :
    (s.modifyChannel c f).pending = s.pending := rfl
@[simp] theorem State.modifyChannel_nrstAsserted (s : State) (c : Channel) (f : ChannelRecord → ChannelRecord) :
    (s.modifyChannel c f).nrstAsserted = s.nrstAsserted := rfl
@[simp] theorem State.modifyChannel_straps (s : State) (c : Channel) (f : ChannelRecord → ChannelRecord) :
    (s.modifyChannel c f).straps = s.straps := rfl
@[simp] theorem State.modifyChannel_bt (s : State) (c : Channel) (f : ChannelRecord → ChannelRecord) :
    (s.modifyChannel c f).bt = s.bt := rfl
@[simp] theorem State.modifyChannel_mi (s : State) (c : Channel) (f : ChannelRecord → ChannelRecord) :
    (s.modifyChannel c f).mi = s.mi := rfl
@[simp] theorem State.modifyChannel_rs (s : State) (c : Channel) (f : ChannelRecord → ChannelRecord) :
    (s.modifyChannel c f).rs = s.rs := rfl
@[simp] theorem State.modifyChannel_cu (s : State) (c : Channel) (f : ChannelRecord → ChannelRecord) :
    (s.modifyChannel c f).cu = s.cu := rfl
@[simp] theorem State.modifyChannel_hu (s : State) (c : Channel) (f : ChannelRecord → ChannelRecord) :
    (s.modifyChannel c f).hu = s.hu := rfl
@[simp] theorem State.modifyChannel_ds (s : State) (c : Channel) (f : ChannelRecord → ChannelRecord) :
    (s.modifyChannel c f).ds = s.ds := rfl
@[simp] theorem State.modifyChannel_rq (s : State) (c : Channel) (f : ChannelRecord → ChannelRecord) :
    (s.modifyChannel c f).rq = s.rq := rfl
@[simp] theorem State.modifyChannel_na (s : State) (c : Channel) (f : ChannelRecord → ChannelRecord) :
    (s.modifyChannel c f).na = s.na := rfl
@[simp] theorem State.modifyChannel_la (s : State) (c : Channel) (f : ChannelRecord → ChannelRecord) :
    (s.modifyChannel c f).la = s.la := rfl
@[simp] theorem State.modifyChannel_lb (s : State) (c : Channel) (f : ChannelRecord → ChannelRecord) :
    (s.modifyChannel c f).lb = s.lb := rfl
@[simp] theorem State.modifyChannel_lc (s : State) (c : Channel) (f : ChannelRecord → ChannelRecord) :
    (s.modifyChannel c f).lc = s.lc := rfl
@[simp] theorem State.modifyChannel_freeCount (s : State) (c : Channel) (f : ChannelRecord → ChannelRecord) :
    (s.modifyChannel c f).freeCount = s.freeCount := rfl

@[simp] theorem State.modifyLevel_pending (s : State) (i : LevelInput) (f : LevelLine → LevelLine) :
    (s.modifyLevel i f).pending = s.pending := by cases i <;> rfl
@[simp] theorem State.modifyLevel_nrstAsserted (s : State) (i : LevelInput) (f : LevelLine → LevelLine) :
    (s.modifyLevel i f).nrstAsserted = s.nrstAsserted := by cases i <;> rfl
@[simp] theorem State.modifyLevel_straps (s : State) (i : LevelInput) (f : LevelLine → LevelLine) :
    (s.modifyLevel i f).straps = s.straps := by cases i <;> rfl
@[simp] theorem State.modifyLevel_bt (s : State) (i : LevelInput) (f : LevelLine → LevelLine) :
    (s.modifyLevel i f).bt = s.bt := by cases i <;> rfl
@[simp] theorem State.modifyLevel_mf (s : State) (i : LevelInput) (f : LevelLine → LevelLine) :
    (s.modifyLevel i f).mf = s.mf := by cases i <;> rfl
@[simp] theorem State.modifyLevel_rs (s : State) (i : LevelInput) (f : LevelLine → LevelLine) :
    (s.modifyLevel i f).rs = s.rs := by cases i <;> rfl
@[simp] theorem State.modifyLevel_cu (s : State) (i : LevelInput) (f : LevelLine → LevelLine) :
    (s.modifyLevel i f).cu = s.cu := by cases i <;> rfl
@[simp] theorem State.modifyLevel_hu (s : State) (i : LevelInput) (f : LevelLine → LevelLine) :
    (s.modifyLevel i f).hu = s.hu := by cases i <;> rfl
@[simp] theorem State.modifyLevel_ds (s : State) (i : LevelInput) (f : LevelLine → LevelLine) :
    (s.modifyLevel i f).ds = s.ds := by cases i <;> rfl
@[simp] theorem State.modifyLevel_rq (s : State) (i : LevelInput) (f : LevelLine → LevelLine) :
    (s.modifyLevel i f).rq = s.rq := by cases i <;> rfl
@[simp] theorem State.modifyLevel_na (s : State) (i : LevelInput) (f : LevelLine → LevelLine) :
    (s.modifyLevel i f).na = s.na := by cases i <;> rfl
@[simp] theorem State.modifyLevel_la (s : State) (i : LevelInput) (f : LevelLine → LevelLine) :
    (s.modifyLevel i f).la = s.la := by cases i <;> rfl
@[simp] theorem State.modifyLevel_lb (s : State) (i : LevelInput) (f : LevelLine → LevelLine) :
    (s.modifyLevel i f).lb = s.lb := by cases i <;> rfl
@[simp] theorem State.modifyLevel_lc (s : State) (i : LevelInput) (f : LevelLine → LevelLine) :
    (s.modifyLevel i f).lc = s.lc := by cases i <;> rfl
@[simp] theorem State.modifyLevel_freeCount (s : State) (i : LevelInput) (f : LevelLine → LevelLine) :
    (s.modifyLevel i f).freeCount = s.freeCount := by cases i <;> rfl

@[simp] theorem State.withAngle_pending (s : State) (n : Nat) : (s.withAngle n).pending = s.pending := rfl
@[simp] theorem State.withAngle_nrstAsserted (s : State) (n : Nat) :
    (s.withAngle n).nrstAsserted = s.nrstAsserted := rfl
@[simp] theorem State.withAngle_straps (s : State) (n : Nat) : (s.withAngle n).straps = s.straps := rfl
@[simp] theorem State.withAngle_bt (s : State) (n : Nat) : (s.withAngle n).bt = s.bt := rfl
@[simp] theorem State.withAngle_mf (s : State) (n : Nat) : (s.withAngle n).mf = s.mf := rfl
@[simp] theorem State.withAngle_rs (s : State) (n : Nat) : (s.withAngle n).rs = s.rs := rfl
@[simp] theorem State.withAngle_cu (s : State) (n : Nat) : (s.withAngle n).cu = s.cu := rfl
@[simp] theorem State.withAngle_hu (s : State) (n : Nat) : (s.withAngle n).hu = s.hu := rfl
@[simp] theorem State.withAngle_ds (s : State) (n : Nat) : (s.withAngle n).ds = s.ds := rfl
@[simp] theorem State.withAngle_rq (s : State) (n : Nat) : (s.withAngle n).rq = s.rq := rfl
@[simp] theorem State.withAngle_na (s : State) (n : Nat) : (s.withAngle n).na = s.na := rfl
@[simp] theorem State.withAngle_la (s : State) (n : Nat) : (s.withAngle n).la = s.la := rfl
@[simp] theorem State.withAngle_lb (s : State) (n : Nat) : (s.withAngle n).lb = s.lb := rfl
@[simp] theorem State.withAngle_lc (s : State) (n : Nat) : (s.withAngle n).lc = s.lc := rfl
@[simp] theorem State.withAngle_freeCount (s : State) (n : Nat) : (s.withAngle n).freeCount = s.freeCount := rfl

@[simp] theorem State.modifyDispenser_pending (s : State) (k : Dispenser) (f : DispenserRecord → DispenserRecord) :
    (s.modifyDispenser k f).pending = s.pending := rfl
@[simp] theorem State.modifyDispenser_nrstAsserted (s : State) (k : Dispenser) (f : DispenserRecord → DispenserRecord) :
    (s.modifyDispenser k f).nrstAsserted = s.nrstAsserted := rfl
@[simp] theorem State.modifyDispenser_straps (s : State) (k : Dispenser) (f : DispenserRecord → DispenserRecord) :
    (s.modifyDispenser k f).straps = s.straps := rfl
@[simp] theorem State.modifyDispenser_bt (s : State) (k : Dispenser) (f : DispenserRecord → DispenserRecord) :
    (s.modifyDispenser k f).bt = s.bt := rfl
@[simp] theorem State.modifyDispenser_mf (s : State) (k : Dispenser) (f : DispenserRecord → DispenserRecord) :
    (s.modifyDispenser k f).mf = s.mf := rfl
@[simp] theorem State.modifyDispenser_mi (s : State) (k : Dispenser) (f : DispenserRecord → DispenserRecord) :
    (s.modifyDispenser k f).mi = s.mi := rfl
@[simp] theorem State.modifyDispenser_rs (s : State) (k : Dispenser) (f : DispenserRecord → DispenserRecord) :
    (s.modifyDispenser k f).rs = s.rs := rfl
@[simp] theorem State.modifyDispenser_cu (s : State) (k : Dispenser) (f : DispenserRecord → DispenserRecord) :
    (s.modifyDispenser k f).cu = s.cu := rfl
@[simp] theorem State.modifyDispenser_hu (s : State) (k : Dispenser) (f : DispenserRecord → DispenserRecord) :
    (s.modifyDispenser k f).hu = s.hu := rfl
@[simp] theorem State.modifyDispenser_rq (s : State) (k : Dispenser) (f : DispenserRecord → DispenserRecord) :
    (s.modifyDispenser k f).rq = s.rq := rfl
@[simp] theorem State.modifyDispenser_na (s : State) (k : Dispenser) (f : DispenserRecord → DispenserRecord) :
    (s.modifyDispenser k f).na = s.na := rfl
@[simp] theorem State.modifyDispenser_la (s : State) (k : Dispenser) (f : DispenserRecord → DispenserRecord) :
    (s.modifyDispenser k f).la = s.la := rfl
@[simp] theorem State.modifyDispenser_lb (s : State) (k : Dispenser) (f : DispenserRecord → DispenserRecord) :
    (s.modifyDispenser k f).lb = s.lb := rfl
@[simp] theorem State.modifyDispenser_lc (s : State) (k : Dispenser) (f : DispenserRecord → DispenserRecord) :
    (s.modifyDispenser k f).lc = s.lc := rfl
@[simp] theorem State.modifyDispenser_freeCount (s : State) (k : Dispenser) (f : DispenserRecord → DispenserRecord) :
    (s.modifyDispenser k f).freeCount = s.freeCount := rfl

@[simp] theorem clearSilence_pending (s : State) : (clearSilence s).pending = s.pending := rfl
@[simp] theorem clearSilence_nrstAsserted (s : State) : (clearSilence s).nrstAsserted = s.nrstAsserted := rfl
@[simp] theorem clearSilence_straps (s : State) : (clearSilence s).straps = s.straps := rfl
@[simp] theorem clearSilence_bt (s : State) : (clearSilence s).bt = s.bt := rfl
@[simp] theorem clearSilence_mf (s : State) : (clearSilence s).mf = s.mf := rfl
@[simp] theorem clearSilence_mi (s : State) : (clearSilence s).mi = s.mi := rfl
@[simp] theorem clearSilence_rs (s : State) : (clearSilence s).rs = s.rs := rfl
@[simp] theorem clearSilence_cu (s : State) : (clearSilence s).cu = s.cu := rfl
@[simp] theorem clearSilence_hu (s : State) : (clearSilence s).hu = s.hu := rfl
@[simp] theorem clearSilence_rq (s : State) : (clearSilence s).rq = s.rq := rfl
@[simp] theorem clearSilence_na (s : State) : (clearSilence s).na = s.na := rfl
@[simp] theorem clearSilence_la (s : State) : (clearSilence s).la = s.la := rfl
@[simp] theorem clearSilence_lb (s : State) : (clearSilence s).lb = s.lb := rfl
@[simp] theorem clearSilence_lc (s : State) : (clearSilence s).lc = s.lc := rfl
@[simp] theorem clearSilence_freeCount (s : State) : (clearSilence s).freeCount = s.freeCount := rfl

@[simp] theorem releaseHolds_pending (p : Port) (s : State) : (releaseHolds p s).pending = s.pending := rfl
@[simp] theorem releaseHolds_nrstAsserted (p : Port) (s : State) :
    (releaseHolds p s).nrstAsserted = s.nrstAsserted := rfl
@[simp] theorem releaseHolds_straps (p : Port) (s : State) : (releaseHolds p s).straps = s.straps := rfl
@[simp] theorem releaseHolds_bt (p : Port) (s : State) : (releaseHolds p s).bt = s.bt := rfl
@[simp] theorem releaseHolds_mi (p : Port) (s : State) : (releaseHolds p s).mi = s.mi := rfl
@[simp] theorem releaseHolds_rs (p : Port) (s : State) : (releaseHolds p s).rs = s.rs := rfl
@[simp] theorem releaseHolds_cu (p : Port) (s : State) : (releaseHolds p s).cu = s.cu := rfl
@[simp] theorem releaseHolds_hu (p : Port) (s : State) : (releaseHolds p s).hu = s.hu := rfl
@[simp] theorem releaseHolds_ds (p : Port) (s : State) : (releaseHolds p s).ds = s.ds := rfl
@[simp] theorem releaseHolds_rq (p : Port) (s : State) : (releaseHolds p s).rq = s.rq := rfl
@[simp] theorem releaseHolds_na (p : Port) (s : State) : (releaseHolds p s).na = s.na := rfl
@[simp] theorem releaseHolds_la (p : Port) (s : State) : (releaseHolds p s).la = s.la := rfl
@[simp] theorem releaseHolds_lb (p : Port) (s : State) : (releaseHolds p s).lb = s.lb := rfl
@[simp] theorem releaseHolds_lc (p : Port) (s : State) : (releaseHolds p s).lc = s.lc := rfl
@[simp] theorem releaseHolds_freeCount (p : Port) (s : State) : (releaseHolds p s).freeCount = s.freeCount := rfl

/-! ### Arbiters -/

@[simp] theorem State.modifyArbiter_pending (s : State) (p : Port) (f : Arbiter → Arbiter) :
    (s.modifyArbiter p f).pending = s.pending := rfl
@[simp] theorem State.modifyArbiter_nrstAsserted (s : State) (p : Port) (f : Arbiter → Arbiter) :
    (s.modifyArbiter p f).nrstAsserted = s.nrstAsserted := rfl
@[simp] theorem State.modifyArbiter_straps (s : State) (p : Port) (f : Arbiter → Arbiter) :
    (s.modifyArbiter p f).straps = s.straps := rfl
@[simp] theorem State.modifyArbiter_bt (s : State) (p : Port) (f : Arbiter → Arbiter) :
    (s.modifyArbiter p f).bt = s.bt := rfl
@[simp] theorem State.modifyArbiter_mf (s : State) (p : Port) (f : Arbiter → Arbiter) :
    (s.modifyArbiter p f).mf = s.mf := rfl
@[simp] theorem State.modifyArbiter_mi (s : State) (p : Port) (f : Arbiter → Arbiter) :
    (s.modifyArbiter p f).mi = s.mi := rfl
@[simp] theorem State.modifyArbiter_rs (s : State) (p : Port) (f : Arbiter → Arbiter) :
    (s.modifyArbiter p f).rs = s.rs := rfl
@[simp] theorem State.modifyArbiter_cu (s : State) (p : Port) (f : Arbiter → Arbiter) :
    (s.modifyArbiter p f).cu = s.cu := rfl
@[simp] theorem State.modifyArbiter_hu (s : State) (p : Port) (f : Arbiter → Arbiter) :
    (s.modifyArbiter p f).hu = s.hu := rfl
@[simp] theorem State.modifyArbiter_ds (s : State) (p : Port) (f : Arbiter → Arbiter) :
    (s.modifyArbiter p f).ds = s.ds := rfl
@[simp] theorem State.modifyArbiter_rq (s : State) (p : Port) (f : Arbiter → Arbiter) :
    (s.modifyArbiter p f).rq = s.rq := rfl
@[simp] theorem State.modifyArbiter_la (s : State) (p : Port) (f : Arbiter → Arbiter) :
    (s.modifyArbiter p f).la = s.la := rfl
@[simp] theorem State.modifyArbiter_lb (s : State) (p : Port) (f : Arbiter → Arbiter) :
    (s.modifyArbiter p f).lb = s.lb := rfl
@[simp] theorem State.modifyArbiter_lc (s : State) (p : Port) (f : Arbiter → Arbiter) :
    (s.modifyArbiter p f).lc = s.lc := rfl
@[simp] theorem State.modifyArbiter_freeCount (s : State) (p : Port) (f : Arbiter → Arbiter) :
    (s.modifyArbiter p f).freeCount = s.freeCount := rfl

@[simp] theorem State.writeLatch_pending (s : State) (p : Port) (src : Source) (i : Fin 4) (v : Option Nat) :
    (s.writeLatch p src i v).pending = s.pending := rfl
@[simp] theorem State.writeLatch_nrstAsserted (s : State) (p : Port) (src : Source) (i : Fin 4) (v : Option Nat) :
    (s.writeLatch p src i v).nrstAsserted = s.nrstAsserted := rfl
@[simp] theorem State.writeLatch_straps (s : State) (p : Port) (src : Source) (i : Fin 4) (v : Option Nat) :
    (s.writeLatch p src i v).straps = s.straps := rfl
@[simp] theorem State.writeLatch_bt (s : State) (p : Port) (src : Source) (i : Fin 4) (v : Option Nat) :
    (s.writeLatch p src i v).bt = s.bt := rfl
@[simp] theorem State.writeLatch_mf (s : State) (p : Port) (src : Source) (i : Fin 4) (v : Option Nat) :
    (s.writeLatch p src i v).mf = s.mf := rfl
@[simp] theorem State.writeLatch_mi (s : State) (p : Port) (src : Source) (i : Fin 4) (v : Option Nat) :
    (s.writeLatch p src i v).mi = s.mi := rfl
@[simp] theorem State.writeLatch_rs (s : State) (p : Port) (src : Source) (i : Fin 4) (v : Option Nat) :
    (s.writeLatch p src i v).rs = s.rs := rfl
@[simp] theorem State.writeLatch_cu (s : State) (p : Port) (src : Source) (i : Fin 4) (v : Option Nat) :
    (s.writeLatch p src i v).cu = s.cu := rfl
@[simp] theorem State.writeLatch_hu (s : State) (p : Port) (src : Source) (i : Fin 4) (v : Option Nat) :
    (s.writeLatch p src i v).hu = s.hu := rfl
@[simp] theorem State.writeLatch_ds (s : State) (p : Port) (src : Source) (i : Fin 4) (v : Option Nat) :
    (s.writeLatch p src i v).ds = s.ds := rfl
@[simp] theorem State.writeLatch_rq (s : State) (p : Port) (src : Source) (i : Fin 4) (v : Option Nat) :
    (s.writeLatch p src i v).rq = s.rq := rfl
@[simp] theorem State.writeLatch_la (s : State) (p : Port) (src : Source) (i : Fin 4) (v : Option Nat) :
    (s.writeLatch p src i v).la = s.la := rfl
@[simp] theorem State.writeLatch_lb (s : State) (p : Port) (src : Source) (i : Fin 4) (v : Option Nat) :
    (s.writeLatch p src i v).lb = s.lb := rfl
@[simp] theorem State.writeLatch_lc (s : State) (p : Port) (src : Source) (i : Fin 4) (v : Option Nat) :
    (s.writeLatch p src i v).lc = s.lc := rfl
@[simp] theorem State.writeLatch_freeCount (s : State) (p : Port) (src : Source) (i : Fin 4) (v : Option Nat) :
    (s.writeLatch p src i v).freeCount = s.freeCount := rfl

@[simp] theorem setLatch_pending (p : Port) (src : Source) (i : Fin 4) (n : Nat) (s : State) :
    (setLatch p src i n s).pending = s.pending := rfl
@[simp] theorem setLatch_nrstAsserted (p : Port) (src : Source) (i : Fin 4) (n : Nat) (s : State) :
    (setLatch p src i n s).nrstAsserted = s.nrstAsserted := rfl
@[simp] theorem setLatch_straps (p : Port) (src : Source) (i : Fin 4) (n : Nat) (s : State) :
    (setLatch p src i n s).straps = s.straps := rfl
@[simp] theorem setLatch_bt (p : Port) (src : Source) (i : Fin 4) (n : Nat) (s : State) :
    (setLatch p src i n s).bt = s.bt := rfl
@[simp] theorem setLatch_mf (p : Port) (src : Source) (i : Fin 4) (n : Nat) (s : State) :
    (setLatch p src i n s).mf = s.mf := rfl
@[simp] theorem setLatch_mi (p : Port) (src : Source) (i : Fin 4) (n : Nat) (s : State) :
    (setLatch p src i n s).mi = s.mi := rfl
@[simp] theorem setLatch_rs (p : Port) (src : Source) (i : Fin 4) (n : Nat) (s : State) :
    (setLatch p src i n s).rs = s.rs := rfl
@[simp] theorem setLatch_cu (p : Port) (src : Source) (i : Fin 4) (n : Nat) (s : State) :
    (setLatch p src i n s).cu = s.cu := rfl
@[simp] theorem setLatch_hu (p : Port) (src : Source) (i : Fin 4) (n : Nat) (s : State) :
    (setLatch p src i n s).hu = s.hu := rfl
@[simp] theorem setLatch_ds (p : Port) (src : Source) (i : Fin 4) (n : Nat) (s : State) :
    (setLatch p src i n s).ds = s.ds := rfl
@[simp] theorem setLatch_rq (p : Port) (src : Source) (i : Fin 4) (n : Nat) (s : State) :
    (setLatch p src i n s).rq = s.rq := rfl
@[simp] theorem setLatch_la (p : Port) (src : Source) (i : Fin 4) (n : Nat) (s : State) :
    (setLatch p src i n s).la = s.la := rfl
@[simp] theorem setLatch_lb (p : Port) (src : Source) (i : Fin 4) (n : Nat) (s : State) :
    (setLatch p src i n s).lb = s.lb := rfl
@[simp] theorem setLatch_lc (p : Port) (src : Source) (i : Fin 4) (n : Nat) (s : State) :
    (setLatch p src i n s).lc = s.lc := rfl
@[simp] theorem setLatch_freeCount (p : Port) (src : Source) (i : Fin 4) (n : Nat) (s : State) :
    (setLatch p src i n s).freeCount = s.freeCount := rfl

@[simp] theorem setLatchAll_pending (src : Source) (i : Fin 4) (n : Nat) (s : State) :
    (setLatchAll src i n s).pending = s.pending := rfl
@[simp] theorem setLatchAll_nrstAsserted (src : Source) (i : Fin 4) (n : Nat) (s : State) :
    (setLatchAll src i n s).nrstAsserted = s.nrstAsserted := rfl
@[simp] theorem setLatchAll_straps (src : Source) (i : Fin 4) (n : Nat) (s : State) :
    (setLatchAll src i n s).straps = s.straps := rfl
@[simp] theorem setLatchAll_bt (src : Source) (i : Fin 4) (n : Nat) (s : State) :
    (setLatchAll src i n s).bt = s.bt := rfl
@[simp] theorem setLatchAll_mf (src : Source) (i : Fin 4) (n : Nat) (s : State) :
    (setLatchAll src i n s).mf = s.mf := rfl
@[simp] theorem setLatchAll_mi (src : Source) (i : Fin 4) (n : Nat) (s : State) :
    (setLatchAll src i n s).mi = s.mi := rfl
@[simp] theorem setLatchAll_rs (src : Source) (i : Fin 4) (n : Nat) (s : State) :
    (setLatchAll src i n s).rs = s.rs := rfl
@[simp] theorem setLatchAll_cu (src : Source) (i : Fin 4) (n : Nat) (s : State) :
    (setLatchAll src i n s).cu = s.cu := rfl
@[simp] theorem setLatchAll_hu (src : Source) (i : Fin 4) (n : Nat) (s : State) :
    (setLatchAll src i n s).hu = s.hu := rfl
@[simp] theorem setLatchAll_ds (src : Source) (i : Fin 4) (n : Nat) (s : State) :
    (setLatchAll src i n s).ds = s.ds := rfl
@[simp] theorem setLatchAll_rq (src : Source) (i : Fin 4) (n : Nat) (s : State) :
    (setLatchAll src i n s).rq = s.rq := rfl
@[simp] theorem setLatchAll_la (src : Source) (i : Fin 4) (n : Nat) (s : State) :
    (setLatchAll src i n s).la = s.la := rfl
@[simp] theorem setLatchAll_lb (src : Source) (i : Fin 4) (n : Nat) (s : State) :
    (setLatchAll src i n s).lb = s.lb := rfl
@[simp] theorem setLatchAll_lc (src : Source) (i : Fin 4) (n : Nat) (s : State) :
    (setLatchAll src i n s).lc = s.lc := rfl
@[simp] theorem setLatchAll_freeCount (src : Source) (i : Fin 4) (n : Nat) (s : State) :
    (setLatchAll src i n s).freeCount = s.freeCount := rfl

@[simp] theorem setStageLatches_pending (z : Zone) (q : Nat) (s : State) :
    (setStageLatches z q s).pending = s.pending := rfl
@[simp] theorem setStageLatches_nrstAsserted (z : Zone) (q : Nat) (s : State) :
    (setStageLatches z q s).nrstAsserted = s.nrstAsserted := rfl
@[simp] theorem setStageLatches_straps (z : Zone) (q : Nat) (s : State) :
    (setStageLatches z q s).straps = s.straps := rfl
@[simp] theorem setStageLatches_bt (z : Zone) (q : Nat) (s : State) : (setStageLatches z q s).bt = s.bt := rfl
@[simp] theorem setStageLatches_mf (z : Zone) (q : Nat) (s : State) : (setStageLatches z q s).mf = s.mf := rfl
@[simp] theorem setStageLatches_mi (z : Zone) (q : Nat) (s : State) : (setStageLatches z q s).mi = s.mi := rfl
@[simp] theorem setStageLatches_rs (z : Zone) (q : Nat) (s : State) : (setStageLatches z q s).rs = s.rs := rfl
@[simp] theorem setStageLatches_cu (z : Zone) (q : Nat) (s : State) : (setStageLatches z q s).cu = s.cu := rfl
@[simp] theorem setStageLatches_hu (z : Zone) (q : Nat) (s : State) : (setStageLatches z q s).hu = s.hu := rfl
@[simp] theorem setStageLatches_ds (z : Zone) (q : Nat) (s : State) : (setStageLatches z q s).ds = s.ds := rfl
@[simp] theorem setStageLatches_rq (z : Zone) (q : Nat) (s : State) : (setStageLatches z q s).rq = s.rq := rfl
@[simp] theorem setStageLatches_la (z : Zone) (q : Nat) (s : State) : (setStageLatches z q s).la = s.la := rfl
@[simp] theorem setStageLatches_lb (z : Zone) (q : Nat) (s : State) : (setStageLatches z q s).lb = s.lb := rfl
@[simp] theorem setStageLatches_lc (z : Zone) (q : Nat) (s : State) : (setStageLatches z q s).lc = s.lc := rfl
@[simp] theorem setStageLatches_freeCount (z : Zone) (q : Nat) (s : State) :
    (setStageLatches z q s).freeCount = s.freeCount := rfl

@[simp] theorem resetNotices_pending (p : Port) (s : State) : (resetNotices p s).pending = s.pending := rfl
@[simp] theorem resetNotices_nrstAsserted (p : Port) (s : State) :
    (resetNotices p s).nrstAsserted = s.nrstAsserted := rfl
@[simp] theorem resetNotices_straps (p : Port) (s : State) : (resetNotices p s).straps = s.straps := rfl
@[simp] theorem resetNotices_bt (p : Port) (s : State) : (resetNotices p s).bt = s.bt := rfl
@[simp] theorem resetNotices_mf (p : Port) (s : State) : (resetNotices p s).mf = s.mf := rfl
@[simp] theorem resetNotices_mi (p : Port) (s : State) : (resetNotices p s).mi = s.mi := rfl
@[simp] theorem resetNotices_rs (p : Port) (s : State) : (resetNotices p s).rs = s.rs := rfl
@[simp] theorem resetNotices_cu (p : Port) (s : State) : (resetNotices p s).cu = s.cu := rfl
@[simp] theorem resetNotices_hu (p : Port) (s : State) : (resetNotices p s).hu = s.hu := rfl
@[simp] theorem resetNotices_ds (p : Port) (s : State) : (resetNotices p s).ds = s.ds := rfl
@[simp] theorem resetNotices_rq (p : Port) (s : State) : (resetNotices p s).rq = s.rq := rfl
@[simp] theorem resetNotices_la (p : Port) (s : State) : (resetNotices p s).la = s.la := rfl
@[simp] theorem resetNotices_lb (p : Port) (s : State) : (resetNotices p s).lb = s.lb := rfl
@[simp] theorem resetNotices_lc (p : Port) (s : State) : (resetNotices p s).lc = s.lc := rfl
@[simp] theorem resetNotices_freeCount (p : Port) (s : State) : (resetNotices p s).freeCount = s.freeCount := rfl

@[simp] theorem refreshAttention_pending (s : State) : (refreshAttention s).pending = s.pending := rfl
@[simp] theorem refreshAttention_nrstAsserted (s : State) : (refreshAttention s).nrstAsserted = s.nrstAsserted := rfl
@[simp] theorem refreshAttention_straps (s : State) : (refreshAttention s).straps = s.straps := rfl
@[simp] theorem refreshAttention_bt (s : State) : (refreshAttention s).bt = s.bt := rfl
@[simp] theorem refreshAttention_mf (s : State) : (refreshAttention s).mf = s.mf := rfl
@[simp] theorem refreshAttention_mi (s : State) : (refreshAttention s).mi = s.mi := rfl
@[simp] theorem refreshAttention_rs (s : State) : (refreshAttention s).rs = s.rs := rfl
@[simp] theorem refreshAttention_cu (s : State) : (refreshAttention s).cu = s.cu := rfl
@[simp] theorem refreshAttention_hu (s : State) : (refreshAttention s).hu = s.hu := rfl
@[simp] theorem refreshAttention_ds (s : State) : (refreshAttention s).ds = s.ds := rfl
@[simp] theorem refreshAttention_rq (s : State) : (refreshAttention s).rq = s.rq := rfl
@[simp] theorem refreshAttention_la (s : State) : (refreshAttention s).la = s.la := rfl
@[simp] theorem refreshAttention_lb (s : State) : (refreshAttention s).lb = s.lb := rfl
@[simp] theorem refreshAttention_lc (s : State) : (refreshAttention s).lc = s.lc := rfl
@[simp] theorem refreshAttention_freeCount (s : State) : (refreshAttention s).freeCount = s.freeCount := rfl

/-! ### Chamber -/

@[simp] theorem syncDv_pending (s : State) : (syncDv s).pending = s.pending := rfl
@[simp] theorem syncDv_nrstAsserted (s : State) : (syncDv s).nrstAsserted = s.nrstAsserted := rfl
@[simp] theorem syncDv_straps (s : State) : (syncDv s).straps = s.straps := rfl
@[simp] theorem syncDv_bt (s : State) : (syncDv s).bt = s.bt := rfl
@[simp] theorem syncDv_mf (s : State) : (syncDv s).mf = s.mf := rfl
@[simp] theorem syncDv_mi (s : State) : (syncDv s).mi = s.mi := rfl
@[simp] theorem syncDv_rs (s : State) : (syncDv s).rs = s.rs := rfl
@[simp] theorem syncDv_hu (s : State) : (syncDv s).hu = s.hu := rfl
@[simp] theorem syncDv_ds (s : State) : (syncDv s).ds = s.ds := rfl
@[simp] theorem syncDv_rq (s : State) : (syncDv s).rq = s.rq := rfl
@[simp] theorem syncDv_na (s : State) : (syncDv s).na = s.na := rfl
@[simp] theorem syncDv_la (s : State) : (syncDv s).la = s.la := rfl
@[simp] theorem syncDv_lb (s : State) : (syncDv s).lb = s.lb := rfl
@[simp] theorem syncDv_lc (s : State) : (syncDv s).lc = s.lc := rfl
@[simp] theorem syncDv_freeCount (s : State) : (syncDv s).freeCount = s.freeCount := rfl

@[simp] theorem syncFull_pending (s : State) : (syncFull s).pending = s.pending := rfl
@[simp] theorem syncFull_nrstAsserted (s : State) : (syncFull s).nrstAsserted = s.nrstAsserted := rfl
@[simp] theorem syncFull_straps (s : State) : (syncFull s).straps = s.straps := rfl
@[simp] theorem syncFull_bt (s : State) : (syncFull s).bt = s.bt := rfl
@[simp] theorem syncFull_mf (s : State) : (syncFull s).mf = s.mf := rfl
@[simp] theorem syncFull_mi (s : State) : (syncFull s).mi = s.mi := rfl
@[simp] theorem syncFull_rs (s : State) : (syncFull s).rs = s.rs := rfl
@[simp] theorem syncFull_hu (s : State) : (syncFull s).hu = s.hu := rfl
@[simp] theorem syncFull_ds (s : State) : (syncFull s).ds = s.ds := rfl
@[simp] theorem syncFull_rq (s : State) : (syncFull s).rq = s.rq := rfl
@[simp] theorem syncFull_na (s : State) : (syncFull s).na = s.na := rfl
@[simp] theorem syncFull_la (s : State) : (syncFull s).la = s.la := rfl
@[simp] theorem syncFull_lb (s : State) : (syncFull s).lb = s.lb := rfl
@[simp] theorem syncFull_lc (s : State) : (syncFull s).lc = s.lc := rfl
@[simp] theorem syncFull_freeCount (s : State) : (syncFull s).freeCount = s.freeCount := rfl

@[simp] theorem syncChamber_pending (s : State) : (syncChamber s).pending = s.pending := rfl
@[simp] theorem syncChamber_nrstAsserted (s : State) : (syncChamber s).nrstAsserted = s.nrstAsserted := rfl
@[simp] theorem syncChamber_straps (s : State) : (syncChamber s).straps = s.straps := rfl
@[simp] theorem syncChamber_bt (s : State) : (syncChamber s).bt = s.bt := rfl
@[simp] theorem syncChamber_mf (s : State) : (syncChamber s).mf = s.mf := rfl
@[simp] theorem syncChamber_mi (s : State) : (syncChamber s).mi = s.mi := rfl
@[simp] theorem syncChamber_rs (s : State) : (syncChamber s).rs = s.rs := rfl
@[simp] theorem syncChamber_hu (s : State) : (syncChamber s).hu = s.hu := rfl
@[simp] theorem syncChamber_ds (s : State) : (syncChamber s).ds = s.ds := rfl
@[simp] theorem syncChamber_rq (s : State) : (syncChamber s).rq = s.rq := rfl
@[simp] theorem syncChamber_na (s : State) : (syncChamber s).na = s.na := rfl
@[simp] theorem syncChamber_la (s : State) : (syncChamber s).la = s.la := rfl
@[simp] theorem syncChamber_lb (s : State) : (syncChamber s).lb = s.lb := rfl
@[simp] theorem syncChamber_lc (s : State) : (syncChamber s).lc = s.lc := rfl
@[simp] theorem syncChamber_freeCount (s : State) : (syncChamber s).freeCount = s.freeCount := rfl

@[simp] theorem recomputeCode_pending (s : State) :
    (recomputeCode s).pending = s.pending := by
  unfold recomputeCode; split <;> [split <;> rfl; rfl]
@[simp] theorem recomputeCode_nrstAsserted (s : State) :
    (recomputeCode s).nrstAsserted = s.nrstAsserted := by
  unfold recomputeCode; split <;> [split <;> rfl; rfl]
@[simp] theorem recomputeCode_straps (s : State) :
    (recomputeCode s).straps = s.straps := by
  unfold recomputeCode; split <;> [split <;> rfl; rfl]
@[simp] theorem recomputeCode_bt (s : State) :
    (recomputeCode s).bt = s.bt := by
  unfold recomputeCode; split <;> [split <;> rfl; rfl]
@[simp] theorem recomputeCode_mf (s : State) :
    (recomputeCode s).mf = s.mf := by
  unfold recomputeCode; split <;> [split <;> rfl; rfl]
@[simp] theorem recomputeCode_mi (s : State) :
    (recomputeCode s).mi = s.mi := by
  unfold recomputeCode; split <;> [split <;> rfl; rfl]
@[simp] theorem recomputeCode_rs (s : State) :
    (recomputeCode s).rs = s.rs := by
  unfold recomputeCode; split <;> [split <;> rfl; rfl]
@[simp] theorem recomputeCode_hu (s : State) :
    (recomputeCode s).hu = s.hu := by
  unfold recomputeCode; split <;> [split <;> rfl; rfl]
@[simp] theorem recomputeCode_ds (s : State) :
    (recomputeCode s).ds = s.ds := by
  unfold recomputeCode; split <;> [split <;> rfl; rfl]
@[simp] theorem recomputeCode_rq (s : State) :
    (recomputeCode s).rq = s.rq := by
  unfold recomputeCode; split <;> [split <;> rfl; rfl]
@[simp] theorem recomputeCode_na (s : State) :
    (recomputeCode s).na = s.na := by
  unfold recomputeCode; split <;> [split <;> rfl; rfl]
@[simp] theorem recomputeCode_la (s : State) :
    (recomputeCode s).la = s.la := by
  unfold recomputeCode; split <;> [split <;> rfl; rfl]
@[simp] theorem recomputeCode_lb (s : State) :
    (recomputeCode s).lb = s.lb := by
  unfold recomputeCode; split <;> [split <;> rfl; rfl]
@[simp] theorem recomputeCode_lc (s : State) :
    (recomputeCode s).lc = s.lc := by
  unfold recomputeCode; split <;> [split <;> rfl; rfl]
@[simp] theorem recomputeCode_freeCount (s : State) :
    (recomputeCode s).freeCount = s.freeCount := by
  unfold recomputeCode; split <;> [split <;> rfl; rfl]

/-! ### Links -/

@[simp] theorem State.modifyLine_pending (s : State) (l : LinePort) (f : LineLink → LineLink) :
    (s.modifyLine l f).pending = s.pending := by cases l <;> rfl
@[simp] theorem State.modifyLine_nrstAsserted (s : State) (l : LinePort) (f : LineLink → LineLink) :
    (s.modifyLine l f).nrstAsserted = s.nrstAsserted := by cases l <;> rfl
@[simp] theorem State.modifyLine_straps (s : State) (l : LinePort) (f : LineLink → LineLink) :
    (s.modifyLine l f).straps = s.straps := by cases l <;> rfl
@[simp] theorem State.modifyLine_bt (s : State) (l : LinePort) (f : LineLink → LineLink) :
    (s.modifyLine l f).bt = s.bt := by cases l <;> rfl
@[simp] theorem State.modifyLine_mf (s : State) (l : LinePort) (f : LineLink → LineLink) :
    (s.modifyLine l f).mf = s.mf := by cases l <;> rfl
@[simp] theorem State.modifyLine_mi (s : State) (l : LinePort) (f : LineLink → LineLink) :
    (s.modifyLine l f).mi = s.mi := by cases l <;> rfl
@[simp] theorem State.modifyLine_rs (s : State) (l : LinePort) (f : LineLink → LineLink) :
    (s.modifyLine l f).rs = s.rs := by cases l <;> rfl
@[simp] theorem State.modifyLine_cu (s : State) (l : LinePort) (f : LineLink → LineLink) :
    (s.modifyLine l f).cu = s.cu := by cases l <;> rfl
@[simp] theorem State.modifyLine_hu (s : State) (l : LinePort) (f : LineLink → LineLink) :
    (s.modifyLine l f).hu = s.hu := by cases l <;> rfl
@[simp] theorem State.modifyLine_ds (s : State) (l : LinePort) (f : LineLink → LineLink) :
    (s.modifyLine l f).ds = s.ds := by cases l <;> rfl
@[simp] theorem State.modifyLine_rq (s : State) (l : LinePort) (f : LineLink → LineLink) :
    (s.modifyLine l f).rq = s.rq := by cases l <;> rfl
@[simp] theorem State.modifyLine_na (s : State) (l : LinePort) (f : LineLink → LineLink) :
    (s.modifyLine l f).na = s.na := by cases l <;> rfl
@[simp] theorem State.modifyLine_lc (s : State) (l : LinePort) (f : LineLink → LineLink) :
    (s.modifyLine l f).lc = s.lc := by cases l <;> rfl
@[simp] theorem State.modifyLine_freeCount (s : State) (l : LinePort) (f : LineLink → LineLink) :
    (s.modifyLine l f).freeCount = s.freeCount := by cases l <;> rfl

@[simp] theorem State.modifyTarget_pending (s : State) (f : TargetLink → TargetLink) :
    (s.modifyTarget f).pending = s.pending := rfl
@[simp] theorem State.modifyTarget_nrstAsserted (s : State) (f : TargetLink → TargetLink) :
    (s.modifyTarget f).nrstAsserted = s.nrstAsserted := rfl
@[simp] theorem State.modifyTarget_straps (s : State) (f : TargetLink → TargetLink) :
    (s.modifyTarget f).straps = s.straps := rfl
@[simp] theorem State.modifyTarget_bt (s : State) (f : TargetLink → TargetLink) : (s.modifyTarget f).bt = s.bt := rfl
@[simp] theorem State.modifyTarget_mf (s : State) (f : TargetLink → TargetLink) : (s.modifyTarget f).mf = s.mf := rfl
@[simp] theorem State.modifyTarget_mi (s : State) (f : TargetLink → TargetLink) : (s.modifyTarget f).mi = s.mi := rfl
@[simp] theorem State.modifyTarget_rs (s : State) (f : TargetLink → TargetLink) : (s.modifyTarget f).rs = s.rs := rfl
@[simp] theorem State.modifyTarget_cu (s : State) (f : TargetLink → TargetLink) : (s.modifyTarget f).cu = s.cu := rfl
@[simp] theorem State.modifyTarget_hu (s : State) (f : TargetLink → TargetLink) : (s.modifyTarget f).hu = s.hu := rfl
@[simp] theorem State.modifyTarget_ds (s : State) (f : TargetLink → TargetLink) : (s.modifyTarget f).ds = s.ds := rfl
@[simp] theorem State.modifyTarget_rq (s : State) (f : TargetLink → TargetLink) : (s.modifyTarget f).rq = s.rq := rfl
@[simp] theorem State.modifyTarget_na (s : State) (f : TargetLink → TargetLink) : (s.modifyTarget f).na = s.na := rfl
@[simp] theorem State.modifyTarget_la (s : State) (f : TargetLink → TargetLink) : (s.modifyTarget f).la = s.la := rfl
@[simp] theorem State.modifyTarget_lb (s : State) (f : TargetLink → TargetLink) : (s.modifyTarget f).lb = s.lb := rfl
@[simp] theorem State.modifyTarget_freeCount (s : State) (f : TargetLink → TargetLink) :
    (s.modifyTarget f).freeCount = s.freeCount := rfl

@[simp] theorem State.setImage_pending (s : State) (p : Port) (x : Option Image) :
    (s.setImage p x).pending = s.pending := by cases p <;> rfl
@[simp] theorem State.setImage_nrstAsserted (s : State) (p : Port) (x : Option Image) :
    (s.setImage p x).nrstAsserted = s.nrstAsserted := by cases p <;> rfl
@[simp] theorem State.setImage_straps (s : State) (p : Port) (x : Option Image) :
    (s.setImage p x).straps = s.straps := by cases p <;> rfl
@[simp] theorem State.setImage_bt (s : State) (p : Port) (x : Option Image) :
    (s.setImage p x).bt = s.bt := by cases p <;> rfl
@[simp] theorem State.setImage_mf (s : State) (p : Port) (x : Option Image) :
    (s.setImage p x).mf = s.mf := by cases p <;> rfl
@[simp] theorem State.setImage_mi (s : State) (p : Port) (x : Option Image) :
    (s.setImage p x).mi = s.mi := by cases p <;> rfl
@[simp] theorem State.setImage_rs (s : State) (p : Port) (x : Option Image) :
    (s.setImage p x).rs = s.rs := by cases p <;> rfl
@[simp] theorem State.setImage_cu (s : State) (p : Port) (x : Option Image) :
    (s.setImage p x).cu = s.cu := by cases p <;> rfl
@[simp] theorem State.setImage_hu (s : State) (p : Port) (x : Option Image) :
    (s.setImage p x).hu = s.hu := by cases p <;> rfl
@[simp] theorem State.setImage_ds (s : State) (p : Port) (x : Option Image) :
    (s.setImage p x).ds = s.ds := by cases p <;> rfl
@[simp] theorem State.setImage_rq (s : State) (p : Port) (x : Option Image) :
    (s.setImage p x).rq = s.rq := by cases p <;> rfl
@[simp] theorem State.setImage_na (s : State) (p : Port) (x : Option Image) :
    (s.setImage p x).na = s.na := by cases p <;> rfl
@[simp] theorem State.setImage_freeCount (s : State) (p : Port) (x : Option Image) :
    (s.setImage p x).freeCount = s.freeCount := by cases p <;> rfl

@[simp] theorem stepFrames_pending (p : Port) (s : State) : (stepFrames p s).pending = s.pending := by cases p <;> rfl
@[simp] theorem stepFrames_nrstAsserted (p : Port) (s : State) :
    (stepFrames p s).nrstAsserted = s.nrstAsserted := by cases p <;> rfl
@[simp] theorem stepFrames_straps (p : Port) (s : State) : (stepFrames p s).straps = s.straps := by cases p <;> rfl
@[simp] theorem stepFrames_bt (p : Port) (s : State) : (stepFrames p s).bt = s.bt := by cases p <;> rfl
@[simp] theorem stepFrames_mf (p : Port) (s : State) : (stepFrames p s).mf = s.mf := by cases p <;> rfl
@[simp] theorem stepFrames_mi (p : Port) (s : State) : (stepFrames p s).mi = s.mi := by cases p <;> rfl
@[simp] theorem stepFrames_rs (p : Port) (s : State) : (stepFrames p s).rs = s.rs := by cases p <;> rfl
@[simp] theorem stepFrames_cu (p : Port) (s : State) : (stepFrames p s).cu = s.cu := by cases p <;> rfl
@[simp] theorem stepFrames_hu (p : Port) (s : State) : (stepFrames p s).hu = s.hu := by cases p <;> rfl
@[simp] theorem stepFrames_ds (p : Port) (s : State) : (stepFrames p s).ds = s.ds := by cases p <;> rfl
@[simp] theorem stepFrames_rq (p : Port) (s : State) : (stepFrames p s).rq = s.rq := by cases p <;> rfl
@[simp] theorem stepFrames_na (p : Port) (s : State) : (stepFrames p s).na = s.na := by cases p <;> rfl
@[simp] theorem stepFrames_freeCount (p : Port) (s : State) :
    (stepFrames p s).freeCount = s.freeCount := by cases p <;> rfl

@[simp] theorem clearErrorLatch_pending (p : Port) (s : State) :
    (clearErrorLatch p s).pending = s.pending := by cases p <;> rfl
@[simp] theorem clearErrorLatch_nrstAsserted (p : Port) (s : State) :
    (clearErrorLatch p s).nrstAsserted = s.nrstAsserted := by cases p <;> rfl
@[simp] theorem clearErrorLatch_straps (p : Port) (s : State) :
    (clearErrorLatch p s).straps = s.straps := by cases p <;> rfl
@[simp] theorem clearErrorLatch_bt (p : Port) (s : State) : (clearErrorLatch p s).bt = s.bt := by cases p <;> rfl
@[simp] theorem clearErrorLatch_mf (p : Port) (s : State) : (clearErrorLatch p s).mf = s.mf := by cases p <;> rfl
@[simp] theorem clearErrorLatch_mi (p : Port) (s : State) : (clearErrorLatch p s).mi = s.mi := by cases p <;> rfl
@[simp] theorem clearErrorLatch_rs (p : Port) (s : State) : (clearErrorLatch p s).rs = s.rs := by cases p <;> rfl
@[simp] theorem clearErrorLatch_cu (p : Port) (s : State) : (clearErrorLatch p s).cu = s.cu := by cases p <;> rfl
@[simp] theorem clearErrorLatch_hu (p : Port) (s : State) : (clearErrorLatch p s).hu = s.hu := by cases p <;> rfl
@[simp] theorem clearErrorLatch_ds (p : Port) (s : State) : (clearErrorLatch p s).ds = s.ds := by cases p <;> rfl
@[simp] theorem clearErrorLatch_rq (p : Port) (s : State) : (clearErrorLatch p s).rq = s.rq := by cases p <;> rfl
@[simp] theorem clearErrorLatch_na (p : Port) (s : State) : (clearErrorLatch p s).na = s.na := by cases p <;> rfl
@[simp] theorem clearErrorLatch_freeCount (p : Port) (s : State) :
    (clearErrorLatch p s).freeCount = s.freeCount := by cases p <;> rfl

@[simp] theorem deliver_pending (p : Port) (r : Response) (s : State) :
    (deliver p r s).pending = s.pending := by cases p <;> rfl
@[simp] theorem deliver_nrstAsserted (p : Port) (r : Response) (s : State) :
    (deliver p r s).nrstAsserted = s.nrstAsserted := by cases p <;> rfl
@[simp] theorem deliver_straps (p : Port) (r : Response) (s : State) :
    (deliver p r s).straps = s.straps := by cases p <;> rfl
@[simp] theorem deliver_bt (p : Port) (r : Response) (s : State) : (deliver p r s).bt = s.bt := by cases p <;> rfl
@[simp] theorem deliver_mf (p : Port) (r : Response) (s : State) : (deliver p r s).mf = s.mf := by cases p <;> rfl
@[simp] theorem deliver_mi (p : Port) (r : Response) (s : State) : (deliver p r s).mi = s.mi := by cases p <;> rfl
@[simp] theorem deliver_rs (p : Port) (r : Response) (s : State) : (deliver p r s).rs = s.rs := by cases p <;> rfl
@[simp] theorem deliver_cu (p : Port) (r : Response) (s : State) : (deliver p r s).cu = s.cu := by cases p <;> rfl
@[simp] theorem deliver_hu (p : Port) (r : Response) (s : State) : (deliver p r s).hu = s.hu := by cases p <;> rfl
@[simp] theorem deliver_ds (p : Port) (r : Response) (s : State) : (deliver p r s).ds = s.ds := by cases p <;> rfl
@[simp] theorem deliver_rq (p : Port) (r : Response) (s : State) : (deliver p r s).rq = s.rq := by cases p <;> rfl
@[simp] theorem deliver_na (p : Port) (r : Response) (s : State) : (deliver p r s).na = s.na := by cases p <;> rfl
@[simp] theorem deliver_freeCount (p : Port) (r : Response) (s : State) :
    (deliver p r s).freeCount = s.freeCount := by cases p <;> rfl

@[simp] theorem resetLink_pending (p : Port) (s : State) : (resetLink p s).pending = s.pending := by cases p <;> rfl
@[simp] theorem resetLink_nrstAsserted (p : Port) (s : State) :
    (resetLink p s).nrstAsserted = s.nrstAsserted := by cases p <;> rfl
@[simp] theorem resetLink_straps (p : Port) (s : State) : (resetLink p s).straps = s.straps := by cases p <;> rfl
@[simp] theorem resetLink_bt (p : Port) (s : State) : (resetLink p s).bt = s.bt := by cases p <;> rfl
@[simp] theorem resetLink_mf (p : Port) (s : State) : (resetLink p s).mf = s.mf := by cases p <;> rfl
@[simp] theorem resetLink_mi (p : Port) (s : State) : (resetLink p s).mi = s.mi := by cases p <;> rfl
@[simp] theorem resetLink_rs (p : Port) (s : State) : (resetLink p s).rs = s.rs := by cases p <;> rfl
@[simp] theorem resetLink_cu (p : Port) (s : State) : (resetLink p s).cu = s.cu := by cases p <;> rfl
@[simp] theorem resetLink_hu (p : Port) (s : State) : (resetLink p s).hu = s.hu := by cases p <;> rfl
@[simp] theorem resetLink_ds (p : Port) (s : State) : (resetLink p s).ds = s.ds := by cases p <;> rfl
@[simp] theorem resetLink_rq (p : Port) (s : State) : (resetLink p s).rq = s.rq := by cases p <;> rfl
@[simp] theorem resetLink_na (p : Port) (s : State) : (resetLink p s).na = s.na := by cases p <;> rfl
@[simp] theorem resetLink_freeCount (p : Port) (s : State) :
    (resetLink p s).freeCount = s.freeCount := by cases p <;> rfl

@[simp] theorem countTargetError_pending (e : TargetError) (s : State) :
    (countTargetError e s).pending = s.pending := rfl
@[simp] theorem countTargetError_nrstAsserted (e : TargetError) (s : State) :
    (countTargetError e s).nrstAsserted = s.nrstAsserted := rfl
@[simp] theorem countTargetError_straps (e : TargetError) (s : State) :
    (countTargetError e s).straps = s.straps := rfl
@[simp] theorem countTargetError_bt (e : TargetError) (s : State) : (countTargetError e s).bt = s.bt := rfl
@[simp] theorem countTargetError_mf (e : TargetError) (s : State) : (countTargetError e s).mf = s.mf := rfl
@[simp] theorem countTargetError_mi (e : TargetError) (s : State) : (countTargetError e s).mi = s.mi := rfl
@[simp] theorem countTargetError_rs (e : TargetError) (s : State) : (countTargetError e s).rs = s.rs := rfl
@[simp] theorem countTargetError_cu (e : TargetError) (s : State) : (countTargetError e s).cu = s.cu := rfl
@[simp] theorem countTargetError_hu (e : TargetError) (s : State) : (countTargetError e s).hu = s.hu := rfl
@[simp] theorem countTargetError_ds (e : TargetError) (s : State) : (countTargetError e s).ds = s.ds := rfl
@[simp] theorem countTargetError_rq (e : TargetError) (s : State) : (countTargetError e s).rq = s.rq := rfl
@[simp] theorem countTargetError_la (e : TargetError) (s : State) : (countTargetError e s).la = s.la := rfl
@[simp] theorem countTargetError_lb (e : TargetError) (s : State) : (countTargetError e s).lb = s.lb := rfl
@[simp] theorem countTargetError_freeCount (e : TargetError) (s : State) :
    (countTargetError e s).freeCount = s.freeCount := rfl

@[simp] theorem countLineError_pending (l : LinePort) (e : LineError) (s : State) :
    (countLineError l e s).pending = s.pending := by cases l <;> rfl
@[simp] theorem countLineError_nrstAsserted (l : LinePort) (e : LineError) (s : State) :
    (countLineError l e s).nrstAsserted = s.nrstAsserted := by cases l <;> rfl
@[simp] theorem countLineError_straps (l : LinePort) (e : LineError) (s : State) :
    (countLineError l e s).straps = s.straps := by cases l <;> rfl
@[simp] theorem countLineError_bt (l : LinePort) (e : LineError) (s : State) :
    (countLineError l e s).bt = s.bt := by cases l <;> rfl
@[simp] theorem countLineError_mf (l : LinePort) (e : LineError) (s : State) :
    (countLineError l e s).mf = s.mf := by cases l <;> rfl
@[simp] theorem countLineError_mi (l : LinePort) (e : LineError) (s : State) :
    (countLineError l e s).mi = s.mi := by cases l <;> rfl
@[simp] theorem countLineError_rs (l : LinePort) (e : LineError) (s : State) :
    (countLineError l e s).rs = s.rs := by cases l <;> rfl
@[simp] theorem countLineError_cu (l : LinePort) (e : LineError) (s : State) :
    (countLineError l e s).cu = s.cu := by cases l <;> rfl
@[simp] theorem countLineError_hu (l : LinePort) (e : LineError) (s : State) :
    (countLineError l e s).hu = s.hu := by cases l <;> rfl
@[simp] theorem countLineError_ds (l : LinePort) (e : LineError) (s : State) :
    (countLineError l e s).ds = s.ds := by cases l <;> rfl
@[simp] theorem countLineError_rq (l : LinePort) (e : LineError) (s : State) :
    (countLineError l e s).rq = s.rq := by cases l <;> rfl
@[simp] theorem countLineError_lc (l : LinePort) (e : LineError) (s : State) :
    (countLineError l e s).lc = s.lc := by cases l <;> rfl
@[simp] theorem countLineError_freeCount (l : LinePort) (e : LineError) (s : State) :
    (countLineError l e s).freeCount = s.freeCount := by cases l <;> rfl

/-! ### Stage changes, grants and closures -/

@[simp] theorem stageNeighbours_pending (st : Stage) (q : Nat) (s : State) :
    (stageNeighbours st q s).pending = s.pending := by
  cases st <;> simp [stageNeighbours]
@[simp] theorem stageNeighbours_nrstAsserted (st : Stage) (q : Nat) (s : State) :
    (stageNeighbours st q s).nrstAsserted = s.nrstAsserted := by
  cases st <;> simp [stageNeighbours]
@[simp] theorem stageNeighbours_straps (st : Stage) (q : Nat) (s : State) :
    (stageNeighbours st q s).straps = s.straps := by
  cases st <;> simp [stageNeighbours]
@[simp] theorem stageNeighbours_bt (st : Stage) (q : Nat) (s : State) :
    (stageNeighbours st q s).bt = s.bt := by
  cases st <;> simp [stageNeighbours]
@[simp] theorem stageNeighbours_mf (st : Stage) (q : Nat) (s : State) :
    (stageNeighbours st q s).mf = s.mf := by
  cases st <;> simp [stageNeighbours]
@[simp] theorem stageNeighbours_mi (st : Stage) (q : Nat) (s : State) :
    (stageNeighbours st q s).mi = s.mi := by
  cases st <;> simp [stageNeighbours]
@[simp] theorem stageNeighbours_rs (st : Stage) (q : Nat) (s : State) :
    (stageNeighbours st q s).rs = s.rs := by
  cases st <;> simp [stageNeighbours]
@[simp] theorem stageNeighbours_rq (st : Stage) (q : Nat) (s : State) :
    (stageNeighbours st q s).rq = s.rq := by
  cases st <;> simp [stageNeighbours]
@[simp] theorem stageNeighbours_na (st : Stage) (q : Nat) (s : State) :
    (stageNeighbours st q s).na = s.na := by
  cases st <;> simp [stageNeighbours]
@[simp] theorem stageNeighbours_la (st : Stage) (q : Nat) (s : State) :
    (stageNeighbours st q s).la = s.la := by
  cases st <;> simp [stageNeighbours]
@[simp] theorem stageNeighbours_lb (st : Stage) (q : Nat) (s : State) :
    (stageNeighbours st q s).lb = s.lb := by
  cases st <;> simp [stageNeighbours]
@[simp] theorem stageNeighbours_lc (st : Stage) (q : Nat) (s : State) :
    (stageNeighbours st q s).lc = s.lc := by
  cases st <;> simp [stageNeighbours]
@[simp] theorem stageNeighbours_freeCount (st : Stage) (q : Nat) (s : State) :
    (stageNeighbours st q s).freeCount = s.freeCount := by
  cases st <;> simp [stageNeighbours]

@[simp] theorem enterStage_pending (z : Zone) (st : Stage) (s : State) :
    (enterStage z st s).pending = s.pending := by
  unfold enterStage; split <;> simp
@[simp] theorem enterStage_nrstAsserted (z : Zone) (st : Stage) (s : State) :
    (enterStage z st s).nrstAsserted = s.nrstAsserted := by
  unfold enterStage; split <;> simp
@[simp] theorem enterStage_straps (z : Zone) (st : Stage) (s : State) :
    (enterStage z st s).straps = s.straps := by
  unfold enterStage; split <;> simp
@[simp] theorem enterStage_mf (z : Zone) (st : Stage) (s : State) :
    (enterStage z st s).mf = s.mf := by
  unfold enterStage; split <;> simp
@[simp] theorem enterStage_mi (z : Zone) (st : Stage) (s : State) :
    (enterStage z st s).mi = s.mi := by
  unfold enterStage; split <;> simp
@[simp] theorem enterStage_rs (z : Zone) (st : Stage) (s : State) :
    (enterStage z st s).rs = s.rs := by
  unfold enterStage; split <;> simp
@[simp] theorem enterStage_rq (z : Zone) (st : Stage) (s : State) :
    (enterStage z st s).rq = s.rq := by
  unfold enterStage; split <;> simp
@[simp] theorem enterStage_la (z : Zone) (st : Stage) (s : State) :
    (enterStage z st s).la = s.la := by
  unfold enterStage; split <;> simp
@[simp] theorem enterStage_lb (z : Zone) (st : Stage) (s : State) :
    (enterStage z st s).lb = s.lb := by
  unfold enterStage; split <;> simp
@[simp] theorem enterStage_lc (z : Zone) (st : Stage) (s : State) :
    (enterStage z st s).lc = s.lc := by
  unfold enterStage; split <;> simp
@[simp] theorem enterStage_freeCount (z : Zone) (st : Stage) (s : State) :
    (enterStage z st s).freeCount = s.freeCount := by
  unfold enterStage; split <;> simp

@[simp] theorem grantEject_pending (queued : Bool) (s : State) :
    (grantEject queued s).pending = s.pending := by
  unfold grantEject; split <;> [(dsimp only; split <;> simp); rfl]
@[simp] theorem grantEject_nrstAsserted (queued : Bool) (s : State) :
    (grantEject queued s).nrstAsserted = s.nrstAsserted := by
  unfold grantEject; split <;> [(dsimp only; split <;> simp); rfl]
@[simp] theorem grantEject_straps (queued : Bool) (s : State) :
    (grantEject queued s).straps = s.straps := by
  unfold grantEject; split <;> [(dsimp only; split <;> simp); rfl]
@[simp] theorem grantEject_mf (queued : Bool) (s : State) :
    (grantEject queued s).mf = s.mf := by
  unfold grantEject; split <;> [(dsimp only; split <;> simp); rfl]
@[simp] theorem grantEject_mi (queued : Bool) (s : State) :
    (grantEject queued s).mi = s.mi := by
  unfold grantEject; split <;> [(dsimp only; split <;> simp); rfl]
@[simp] theorem grantEject_rs (queued : Bool) (s : State) :
    (grantEject queued s).rs = s.rs := by
  unfold grantEject; split <;> [(dsimp only; split <;> simp); rfl]
@[simp] theorem grantEject_rq (queued : Bool) (s : State) :
    (grantEject queued s).rq = s.rq := by
  unfold grantEject; split <;> [(dsimp only; split <;> simp); rfl]
@[simp] theorem grantEject_la (queued : Bool) (s : State) :
    (grantEject queued s).la = s.la := by
  unfold grantEject; split <;> [(dsimp only; split <;> simp); rfl]
@[simp] theorem grantEject_lb (queued : Bool) (s : State) :
    (grantEject queued s).lb = s.lb := by
  unfold grantEject; split <;> [(dsimp only; split <;> simp); rfl]
@[simp] theorem grantEject_lc (queued : Bool) (s : State) :
    (grantEject queued s).lc = s.lc := by
  unfold grantEject; split <;> [(dsimp only; split <;> simp); rfl]
@[simp] theorem grantEject_freeCount (queued : Bool) (s : State) :
    (grantEject queued s).freeCount = s.freeCount := by
  unfold grantEject; split <;> [(dsimp only; split <;> simp); rfl]

@[simp] theorem evalGrant_pending (s : State) :
    (evalGrant s).pending = s.pending := by
  unfold evalGrant; split <;> simp
@[simp] theorem evalGrant_nrstAsserted (s : State) :
    (evalGrant s).nrstAsserted = s.nrstAsserted := by
  unfold evalGrant; split <;> simp
@[simp] theorem evalGrant_straps (s : State) :
    (evalGrant s).straps = s.straps := by
  unfold evalGrant; split <;> simp
@[simp] theorem evalGrant_mf (s : State) : (evalGrant s).mf = s.mf := by
  unfold evalGrant; split <;> simp
@[simp] theorem evalGrant_mi (s : State) : (evalGrant s).mi = s.mi := by
  unfold evalGrant; split <;> simp
@[simp] theorem evalGrant_rs (s : State) : (evalGrant s).rs = s.rs := by
  unfold evalGrant; split <;> simp
@[simp] theorem evalGrant_rq (s : State) : (evalGrant s).rq = s.rq := by
  unfold evalGrant; split <;> simp
@[simp] theorem evalGrant_la (s : State) : (evalGrant s).la = s.la := by
  unfold evalGrant; split <;> simp
@[simp] theorem evalGrant_lb (s : State) : (evalGrant s).lb = s.lb := by
  unfold evalGrant; split <;> simp
@[simp] theorem evalGrant_lc (s : State) : (evalGrant s).lc = s.lc := by
  unfold evalGrant; split <;> simp
@[simp] theorem evalGrant_freeCount (s : State) :
    (evalGrant s).freeCount = s.freeCount := by
  unfold evalGrant; split <;> simp

@[simp] theorem closureNeighbours_pending (z : Zone) (q : Nat) (reason : CloseReason) (s : State) :
    (closureNeighbours z q reason s).pending = s.pending := by
  cases z <;> simp [closureNeighbours]
  split <;> simp
@[simp] theorem closureNeighbours_nrstAsserted (z : Zone) (q : Nat) (reason : CloseReason) (s : State) :
    (closureNeighbours z q reason s).nrstAsserted = s.nrstAsserted := by
  cases z <;> simp [closureNeighbours]
  split <;> simp
@[simp] theorem closureNeighbours_straps (z : Zone) (q : Nat) (reason : CloseReason) (s : State) :
    (closureNeighbours z q reason s).straps = s.straps := by
  cases z <;> simp [closureNeighbours]
  split <;> simp
@[simp] theorem closureNeighbours_mf (z : Zone) (q : Nat) (reason : CloseReason) (s : State) :
    (closureNeighbours z q reason s).mf = s.mf := by
  cases z <;> simp [closureNeighbours]
  split <;> simp
@[simp] theorem closureNeighbours_mi (z : Zone) (q : Nat) (reason : CloseReason) (s : State) :
    (closureNeighbours z q reason s).mi = s.mi := by
  cases z <;> simp [closureNeighbours]
  split <;> simp
@[simp] theorem closureNeighbours_rs (z : Zone) (q : Nat) (reason : CloseReason) (s : State) :
    (closureNeighbours z q reason s).rs = s.rs := by
  cases z <;> simp [closureNeighbours]
  split <;> simp
@[simp] theorem closureNeighbours_rq (z : Zone) (q : Nat) (reason : CloseReason) (s : State) :
    (closureNeighbours z q reason s).rq = s.rq := by
  cases z <;> simp [closureNeighbours]
  split <;> simp
@[simp] theorem closureNeighbours_la (z : Zone) (q : Nat) (reason : CloseReason) (s : State) :
    (closureNeighbours z q reason s).la = s.la := by
  cases z <;> simp [closureNeighbours]
  split <;> simp
@[simp] theorem closureNeighbours_lb (z : Zone) (q : Nat) (reason : CloseReason) (s : State) :
    (closureNeighbours z q reason s).lb = s.lb := by
  cases z <;> simp [closureNeighbours]
  split <;> simp
@[simp] theorem closureNeighbours_lc (z : Zone) (q : Nat) (reason : CloseReason) (s : State) :
    (closureNeighbours z q reason s).lc = s.lc := by
  cases z <;> simp [closureNeighbours]
  split <;> simp
@[simp] theorem closureNeighbours_freeCount (z : Zone) (q : Nat) (reason : CloseReason) (s : State) :
    (closureNeighbours z q reason s).freeCount = s.freeCount := by
  cases z <;> simp [closureNeighbours]
  split <;> simp

@[simp] theorem closeRecord_pending (z : Zone) (reason : CloseReason) (s : State) :
    (closeRecord z reason s).pending = s.pending := by
  unfold closeRecord; split <;> [(dsimp only; split <;> simp); rfl]
@[simp] theorem closeRecord_nrstAsserted (z : Zone) (reason : CloseReason) (s : State) :
    (closeRecord z reason s).nrstAsserted = s.nrstAsserted := by
  unfold closeRecord; split <;> [(dsimp only; split <;> simp); rfl]
@[simp] theorem closeRecord_straps (z : Zone) (reason : CloseReason) (s : State) :
    (closeRecord z reason s).straps = s.straps := by
  unfold closeRecord; split <;> [(dsimp only; split <;> simp); rfl]
@[simp] theorem closeRecord_mf (z : Zone) (reason : CloseReason) (s : State) :
    (closeRecord z reason s).mf = s.mf := by
  unfold closeRecord; split <;> [(dsimp only; split <;> simp); rfl]
@[simp] theorem closeRecord_mi (z : Zone) (reason : CloseReason) (s : State) :
    (closeRecord z reason s).mi = s.mi := by
  unfold closeRecord; split <;> [(dsimp only; split <;> simp); rfl]
@[simp] theorem closeRecord_rs (z : Zone) (reason : CloseReason) (s : State) :
    (closeRecord z reason s).rs = s.rs := by
  unfold closeRecord; split <;> [(dsimp only; split <;> simp); rfl]
@[simp] theorem closeRecord_la (z : Zone) (reason : CloseReason) (s : State) :
    (closeRecord z reason s).la = s.la := by
  unfold closeRecord; split <;> [(dsimp only; split <;> simp); rfl]
@[simp] theorem closeRecord_lb (z : Zone) (reason : CloseReason) (s : State) :
    (closeRecord z reason s).lb = s.lb := by
  unfold closeRecord; split <;> [(dsimp only; split <;> simp); rfl]
@[simp] theorem closeRecord_lc (z : Zone) (reason : CloseReason) (s : State) :
    (closeRecord z reason s).lc = s.lc := by
  unfold closeRecord; split <;> [(dsimp only; split <;> simp); rfl]
@[simp] theorem closeRecord_freeCount (z : Zone) (reason : CloseReason) (s : State) :
    (closeRecord z reason s).freeCount = s.freeCount := by
  unfold closeRecord; split <;> [(dsimp only; split <;> simp); rfl]

@[simp] theorem createRecord_pending (slot : Nat) (r : Recipe) (st : Stage) (s : State) :
    (createRecord slot r st s).pending = s.pending := by
  simp [createRecord]
@[simp] theorem createRecord_nrstAsserted (slot : Nat) (r : Recipe) (st : Stage) (s : State) :
    (createRecord slot r st s).nrstAsserted = s.nrstAsserted := by
  simp [createRecord]
@[simp] theorem createRecord_straps (slot : Nat) (r : Recipe) (st : Stage) (s : State) :
    (createRecord slot r st s).straps = s.straps := by
  simp [createRecord]
@[simp] theorem createRecord_mf (slot : Nat) (r : Recipe) (st : Stage) (s : State) :
    (createRecord slot r st s).mf = s.mf := by
  simp [createRecord]
@[simp] theorem createRecord_mi (slot : Nat) (r : Recipe) (st : Stage) (s : State) :
    (createRecord slot r st s).mi = s.mi := by
  simp [createRecord]
@[simp] theorem createRecord_rs (slot : Nat) (r : Recipe) (st : Stage) (s : State) :
    (createRecord slot r st s).rs = s.rs := by
  simp [createRecord]
@[simp] theorem createRecord_rq (slot : Nat) (r : Recipe) (st : Stage) (s : State) :
    (createRecord slot r st s).rq = s.rq := by
  simp [createRecord]
@[simp] theorem createRecord_la (slot : Nat) (r : Recipe) (st : Stage) (s : State) :
    (createRecord slot r st s).la = s.la := by
  simp [createRecord]
@[simp] theorem createRecord_lb (slot : Nat) (r : Recipe) (st : Stage) (s : State) :
    (createRecord slot r st s).lb = s.lb := by
  simp [createRecord]
@[simp] theorem createRecord_lc (slot : Nat) (r : Recipe) (st : Stage) (s : State) :
    (createRecord slot r st s).lc = s.lc := by
  simp [createRecord]
@[simp] theorem createRecord_freeCount (slot : Nat) (r : Recipe) (st : Stage) (s : State) :
    (createRecord slot r st s).freeCount = s.freeCount := by
  simp [createRecord]

@[simp] theorem returnToForming_pending (s : State) :
    (returnToForming s).pending = s.pending := by
  simp [returnToForming]
@[simp] theorem returnToForming_nrstAsserted (s : State) :
    (returnToForming s).nrstAsserted = s.nrstAsserted := by
  simp [returnToForming]
@[simp] theorem returnToForming_straps (s : State) :
    (returnToForming s).straps = s.straps := by
  simp [returnToForming]
@[simp] theorem returnToForming_mf (s : State) : (returnToForming s).mf = s.mf := by
  simp [returnToForming]
@[simp] theorem returnToForming_mi (s : State) : (returnToForming s).mi = s.mi := by
  simp [returnToForming]
@[simp] theorem returnToForming_rs (s : State) : (returnToForming s).rs = s.rs := by
  simp [returnToForming]
@[simp] theorem returnToForming_rq (s : State) : (returnToForming s).rq = s.rq := by
  simp [returnToForming]
@[simp] theorem returnToForming_la (s : State) : (returnToForming s).la = s.la := by
  simp [returnToForming]
@[simp] theorem returnToForming_lb (s : State) : (returnToForming s).lb = s.lb := by
  simp [returnToForming]
@[simp] theorem returnToForming_lc (s : State) : (returnToForming s).lc = s.lc := by
  simp [returnToForming]
@[simp] theorem returnToForming_freeCount (s : State) :
    (returnToForming s).freeCount = s.freeCount := by
  simp [returnToForming]

end Sys2Proof.Machine
end

