-- ==== Sys2Proof/Laws/Frames.lean ====
section
/-! SUPPORT. Frames: how `OnlyChanges` composes, and that bringing the attention lines into line changes nothing a frame
speaks of. -/

namespace Sys2Proof.Machine

theorem Block.same_refl (s : State) (k : Block) : k.same s s := by
  cases k with
  | arbiter p => exact ⟨rfl, rfl, rfl⟩
  | link p => cases p <;> rfl
  | _ => rfl

theorem Block.same_arbiter {s t : State} {p : Port} (h : t.na.get p = s.na.get p) : (Block.arbiter p).same s t := by
  show _ ∧ _ ∧ _
  rw [h]
  exact ⟨rfl, rfl, rfl⟩

theorem Block.same_trans {s t u : State} {k : Block} (h1 : k.same s t) (h2 : k.same t u) : k.same s u := by
  cases k with
  | arbiter p => exact ⟨h2.1.trans h1.1, h2.2.1.trans h1.2.1, h2.2.2.trans h1.2.2⟩
  | link p => cases p <;> exact Eq.trans h2 h1
  | _ => exact Eq.trans h2 h1

theorem OnlyChanges.refl (changed : List Block) (s : State) : OnlyChanges changed s s := fun k _ => k.same_refl s

theorem OnlyChanges.trans {changed : List Block} {s t u : State} (h1 : OnlyChanges changed s t)
    (h2 : OnlyChanges changed t u) : OnlyChanges changed s u := fun k hk => Block.same_trans (h1 k hk) (h2 k hk)

theorem OnlyChanges.mono {few many : List Block} {s t : State} (h : OnlyChanges few s t)
    (hs : ∀ k ∈ few, k ∈ many) : OnlyChanges many s t := fun k hk => h k (fun hf => hk (hs k hf))

@[simp] theorem Block.same_refreshAttention (s t : State) (k : Block) :
    k.same s (refreshAttention t) ↔ k.same s t := by
  cases k with
  | arbiter p => cases p <;> exact Iff.rfl
  | link p => cases p <;> exact Iff.rfl
  | _ => exact Iff.rfl

@[simp] theorem OnlyChanges_refreshAttention (changed : List Block) (s t : State) :
    OnlyChanges changed s (refreshAttention t) ↔ OnlyChanges changed s t := by
  simp only [OnlyChanges, Block.same_refreshAttention]

theorem Runs.intro {i : Instr} {s t : State} {after : State → Prop} (h : exec i s = .next t) (ha : after t) :
    Runs i s after := ⟨t, h, ha⟩

/-- The row of a request is its taking, with the attention lines brought into line. -/
theorem exec_requestRow {i : Instr} {p : Port} {code : Byte} {payload : List Byte} (s : State)
    (h : requestRow i = some (p, code, payload)) :
    exec i s = .next (refreshAttention (takeRequest p code payload s)) := by
  cases i <;> first
    | (simp only [requestRow, Option.some.injEq, Prod.mk.injEq] at h
       obtain ⟨rfl, rfl, rfl⟩ := h
       rfl)
    | cases h

end Sys2Proof.Machine
end

