-- ==== Sys2Proof/Laws/Notices.lean ====
section
/-! SUPPORT. Latch settings: what a setting does to every place of every port, and how the settings an event hands on
compose (`Hands`). -/

namespace Sys2Proof.Machine

/-! ### One setting -/

/-- Two arbiter sets are equal when they are on each port. -/
theorem PerPort.ext_get {α : Type} {x y : PerPort α} (h : ∀ p, x.get p = y.get p) : x = y := by
  have ha := h .a
  have hb := h .b
  have hc := h .c
  cases x; cases y
  simp_all [PerPort.get]

@[simp] theorem setLatch_plan (p q : Port) (src : Source) (i : Fin 4) (d : Nat) (s : State) :
    ((setLatch p src i d s).na.get q).plan = (s.na.get q).plan := by
  cases hn : s.nrstAsserted <;> cases p <;> cases q <;> simp [setLatch, hn, State.writeLatch, State.modifyArbiter]

@[simp] theorem setLatch_current (p q : Port) (src : Source) (i : Fin 4) (d : Nat) (s : State) :
    ((setLatch p src i d s).na.get q).current = (s.na.get q).current := by
  cases hn : s.nrstAsserted <;> cases p <;> cases q <;> simp [setLatch, hn, State.writeLatch, State.modifyArbiter]

/-- A setting reaches the port it is handed to alone. -/
theorem setLatch_get_ne {p q : Port} (src : Source) (i : Fin 4) (d : Nat) (s : State) (h : q ≠ p) :
    (setLatch p src i d s).na.get q = s.na.get q := by
  unfold setLatch State.writeLatch State.modifyArbiter
  simp only
  split
  · rfl
  · rw [PerPort.get_set, if_neg h]

/-- A setting changes the arbiter it is handed to, and nothing else. -/
theorem setLatch_frame (p : Port) (src : Source) (i : Fin 4) (d : Nat) (s : State) :
    OnlyChanges [.arbiter p] s (setLatch p src i d s) := by
  intro k hk
  cases k with
  | arbiter q => exact Block.same_arbiter (setLatch_get_ne src i d s (by rintro rfl; simp at hk))
  | link q => cases q <;> rfl
  | _ => rfl

/-- A setting sets its place with its detail, and no other place. -/
theorem setLatch_latch (p q : Port) (src src' : Source) (i i' : Fin 4) (d : Nat) (s : State)
    (hn : s.nrstAsserted = false) :
    (setLatch p src i d s).latch q src' i' =
      if q = p ∧ src' = src ∧ i' = i then some d else s.latch q src' i' := by
  by_cases hq : q = p
  · subst hq
    by_cases hs : src' = src
    · subst hs
      simp [setLatch, hn, State.latch, State.writeLatch, State.modifyArbiter, writePlace]
    · simp [setLatch, hn, State.latch, State.writeLatch, State.modifyArbiter, writePlace, hs]
  · simp [setLatch, hn, State.latch, State.writeLatch, State.modifyArbiter, hq]

/-! ### Settings handed on -/

/-- What `Hands` says of two states is what it says of their arbiters. -/
theorem Hands.congr {settings : List Setting} {s t s' t' : State} (h : Hands settings s t) (hs : s'.na = s.na)
    (ht : t'.na = t.na) : Hands settings s' t' := by
  intro p
  have := h p
  unfold State.latch at *
  rw [hs, ht]
  exact this

theorem Hands.nil {s t : State} (h : t.na = s.na) : Hands [] s t := by
  intro p
  unfold State.latch
  rw [h]
  exact ⟨rfl, rfl, fun _ _ => rfl⟩

theorem Hands.one (p : Port) (src : Source) (i : Fin 4) (d : Nat) {s : State} (hn : s.nrstAsserted = false) :
    Hands [⟨p, src, i, d⟩] s (setLatch p src i d s) := by
  intro q
  refine ⟨by simp, by simp, fun src' i' => ?_⟩
  rw [setLatch_latch _ _ _ _ _ _ _ _ hn]
  simp only [placeAfter, List.find?_cons, List.find?_nil]
  by_cases h : q = p ∧ src' = src ∧ i' = i
  · obtain ⟨rfl, rfl, rfl⟩ := h
    simp
  · rw [if_neg h]
    have : ((p == q) && (src == src') && (i == i')) = false := by
      simp only [Bool.and_eq_false_iff, beq_eq_false_iff_ne, ne_eq]
      by_cases hq : q = p
      · by_cases hs : src' = src
        · exact .inr (fun e => h ⟨hq, hs, e.symm⟩)
        · exact .inl (.inr (fun e => hs e.symm))
      · exact .inl (.inl (fun e => hq e.symm))
    simp [this]

/-- Whether two settings name different places. -/
def Setting.apart (x y : Setting) : Bool := !(x.port == y.port && x.source == y.source && x.inst == y.inst)

/-- Settings that name different places compose, in either order of naming. -/
theorem Hands.append {xs ys : List Setting} {s t u : State} (h1 : Hands xs s t) (h2 : Hands ys t u)
    (ha : ∀ x ∈ xs, ∀ y ∈ ys, x.apart y = true) : Hands (xs ++ ys) s u := by
  intro p
  obtain ⟨a1, a2, a3⟩ := h1 p
  obtain ⟨b1, b2, b3⟩ := h2 p
  refine ⟨b1.trans a1, b2.trans a2, fun src i => ?_⟩
  rw [b3, a3]
  simp only [placeAfter, List.find?_append]
  cases hx : xs.find? (fun x => x.port == p && x.source == src && x.inst == i) with
  | none => cases ys.find? (fun x => x.port == p && x.source == src && x.inst == i) <;> rfl
  | some x =>
    have hy : ys.find? (fun x => x.port == p && x.source == src && x.inst == i) = none := by
      rw [List.find?_eq_none]
      intro y hy e
      have hxm := List.mem_of_find?_eq_some hx
      have hxp := List.find?_some hx
      have := ha x hxm y hy
      simp only [Setting.apart, Bool.not_eq_true', Bool.and_eq_false_iff, Bool.and_eq_true, beq_iff_eq,
        beq_eq_false_iff_ne, ne_eq] at this e hxp
      rcases this with (h | h) | h
      · exact h (hxp.1.1.trans e.1.1.symm)
      · exact h (hxp.1.2.trans e.1.2.symm)
      · exact h (hxp.2.trans e.2.symm)
    rw [hy]
    rfl

theorem Setting.apart_symm {x y : Setting} (h : x.apart y = true) : y.apart x = true := by
  simp only [Setting.apart, Bool.not_eq_true', Bool.and_eq_false_iff, beq_eq_false_iff_ne, ne_eq] at *
  rcases h with (h | h) | h
  · exact .inl (.inl (fun e => h e.symm))
  · exact .inl (.inr (fun e => h e.symm))
  · exact .inr (fun e => h e.symm)

/-- The order in which settings of different places are named does not matter. -/
theorem placeAfter_perm {xs ys : List Setting} (h : xs.Perm ys) (ha : xs.Pairwise (fun x y => x.apart y = true))
    (p : Port) (src : Source) (i : Fin 4) (v : Option Nat) : placeAfter xs p src i v = placeAfter ys p src i v := by
  induction h with
  | nil => rfl
  | cons x _ ih =>
    have := ih (List.pairwise_cons.mp ha).2
    simp only [placeAfter, List.find?_cons] at *
    cases (x.port == p && x.source == src && x.inst == i)
    · exact this
    · rfl
  | swap x y l =>
    have := (List.pairwise_cons.mp ha).1 x (by simp)
    simp only [placeAfter, List.find?_cons]
    cases hx : (x.port == p && x.source == src && x.inst == i) <;>
      cases hy : (y.port == p && y.source == src && y.inst == i) <;> try rfl
    simp only [Setting.apart, Bool.not_eq_true', Bool.and_eq_false_iff, Bool.and_eq_true, beq_iff_eq,
      beq_eq_false_iff_ne, ne_eq] at this hx hy
    rcases this with (h | h) | h
    · exact absurd (hy.1.1.trans hx.1.1.symm) h
    · exact absurd (hy.1.2.trans hx.1.2.symm) h
    · exact absurd (hy.2.trans hx.2.symm) h
  | trans h1 _ ih1 ih2 =>
    exact (ih1 ha).trans (ih2 ((h1.pairwise_iff (fun h => Setting.apart_symm h)).mp ha))

theorem Hands.perm {xs ys : List Setting} {s t : State} (h : Hands xs s t) (hp : xs.Perm ys)
    (ha : xs.Pairwise (fun x y => x.apart y = true)) : Hands ys s t := by
  intro p
  obtain ⟨h1, h2, h3⟩ := h p
  exact ⟨h1, h2, fun src i => by rw [h3, placeAfter_perm hp ha]⟩

/-- Settings whose places later settings all name again leave only the later ones. -/
theorem Hands.override {xs ys : List Setting} {s t u : State} (h1 : Hands xs s t) (h2 : Hands ys t u)
    (ha : ∀ x ∈ xs, ∃ y ∈ ys, y.port = x.port ∧ y.source = x.source ∧ y.inst = x.inst) : Hands ys s u := by
  intro p
  obtain ⟨a1, a2, a3⟩ := h1 p
  obtain ⟨b1, b2, b3⟩ := h2 p
  refine ⟨b1.trans a1, b2.trans a2, fun src i => ?_⟩
  rw [b3, a3]
  simp only [placeAfter]
  cases hy : ys.find? (fun x => x.port == p && x.source == src && x.inst == i) with
  | some y => rfl
  | none =>
    cases hx : xs.find? (fun x => x.port == p && x.source == src && x.inst == i) with
    | none => rfl
    | some x =>
      obtain ⟨y, hym, e1, e2, e3⟩ := ha x (List.mem_of_find?_eq_some hx)
      have hxp := List.find?_some hx
      have := List.find?_eq_none.mp hy y hym
      rw [e1, e2, e3] at this
      exact absurd hxp this

/-- A stage change's settings reach all three ports (R14). -/
theorem Hands.stage (z : Zone) (q : Nat) {s : State} (hn : s.nrstAsserted = false) :
    Hands (stageSettings z q) s (setStageLatches z q s) :=
  Hands.append (xs := [⟨.a, .stage, z.number, q⟩, ⟨.b, .stage, z.number, q⟩])
    (Hands.append (xs := [⟨.a, .stage, z.number, q⟩]) (Hands.one .a .stage z.number q hn)
      (Hands.one .b .stage z.number q (by simpa using hn)) (by simp [Setting.apart]))
    (Hands.one .c .stage z.number q (by simpa using hn)) (by simp [Setting.apart])

/-- Bringing the attention lines into line hands on nothing. -/
theorem Hands.refresh {settings : List Setting} {s t : State} (h : Hands settings s t) :
    Hands settings s (refreshAttention t) := by
  intro p
  obtain ⟨h1, h2, h3⟩ := h p
  refine ⟨?_, ?_, fun src i => ?_⟩
  · cases p <;> exact h1
  · cases p <;> exact h2
  · rw [← h3]; cases p <;> rfl

end Sys2Proof.Machine
end

