-- ==== Sys2Proof/Laws/Records.lean ====
section
/-! SUPPORT. The bale list: what finding, changing and removing the record of a zone gives, once said by the place the
record has in the list (`State.HoldsIn`). -/

namespace Sys2Proof.Machine

theorem inZone_iff (z : Zone) (b : Bale) : inZone z b = true ↔ b.stage.zone = z := by simp [inZone]

theorem modifyZone_append {z : Zone} (f : Bale → Bale) {older : List Bale} {b : Bale} (younger : List Bale)
    (ho : ∀ x ∈ older, x.stage.zone ≠ z) (hb : b.stage.zone = z) :
    modifyZone z f (older ++ b :: younger) = older ++ f b :: younger := by
  induction older with
  | nil => simp [modifyZone, inZone, hb]
  | cons x xs ih =>
    have hx : x.stage.zone ≠ z := ho x (by simp)
    simp [modifyZone, inZone, hx, ih (fun y hy => ho y (by simp [hy]))]

theorem removeZone_append {z : Zone} {older : List Bale} {b : Bale} (younger : List Bale)
    (ho : ∀ x ∈ older, x.stage.zone ≠ z) (hb : b.stage.zone = z) :
    removeZone z (older ++ b :: younger) = older ++ younger := by
  induction older with
  | nil => simp [removeZone, inZone, hb]
  | cons x xs ih =>
    have hx : x.stage.zone ≠ z := ho x (by simp)
    simp [removeZone, inZone, hx, ih (fun y hy => ho y (by simp [hy]))]

theorem modifyZone_empty {z : Zone} (f : Bale → Bale) {l : List Bale} (h : ∀ x ∈ l, x.stage.zone ≠ z) :
    modifyZone z f l = l := by
  induction l with
  | nil => rfl
  | cons x xs ih =>
    have hx : x.stage.zone ≠ z := h x (by simp)
    simp [modifyZone, inZone, hx, ih (fun y hy => h y (by simp [hy]))]

theorem removeZone_empty {z : Zone} {l : List Bale} (h : ∀ x ∈ l, x.stage.zone ≠ z) : removeZone z l = l := by
  induction l with
  | nil => rfl
  | cons x xs ih =>
    have hx : x.stage.zone ≠ z := h x (by simp)
    simp [removeZone, inZone, hx, ih (fun y hy => h y (by simp [hy]))]

theorem findZone_append {z : Zone} {older : List Bale} {b : Bale} (younger : List Bale)
    (ho : ∀ x ∈ older, x.stage.zone ≠ z) (hb : b.stage.zone = z) :
    (older ++ b :: younger).find? (inZone z) = some b := by
  rw [List.find?_append, List.find?_eq_none.mpr (by simpa [inZone] using ho)]
  simp [inZone, hb]

/-- The record a zone holds is the one `recordIn` finds. -/
theorem State.HoldsIn.recordIn {s : State} {z : Zone} {older younger : List Bale} {b : Bale}
    (h : s.HoldsIn z older b younger) : s.recordIn z = some b := by
  obtain ⟨h1, h2, h3⟩ := h
  rw [State.recordIn, h1, findZone_append younger h3 h2]

/-- A record found in a zone has its place in the list. -/
theorem State.holdsIn_of_recordIn {s : State} {z : Zone} {b : Bale} (h : s.recordIn z = some b) :
    ∃ older younger, s.HoldsIn z older b younger := by
  rw [State.recordIn, List.find?_eq_some_iff_append] at h
  obtain ⟨hb, as, bs, hl, ho⟩ := h
  exact ⟨as, bs, hl, by simpa [inZone] using hb, by simpa [inZone] using ho⟩

theorem State.recordIn_eq_none {s : State} {z : Zone} :
    s.recordIn z = none ↔ ∀ x ∈ s.bt.bales, x.stage.zone ≠ z := by
  simp [State.recordIn, List.find?_eq_none, inZone]

theorem State.recordIn_zone {s : State} {z : Zone} {b : Bale} (h : s.recordIn z = some b) : b.stage.zone = z := by
  obtain ⟨_, _, h⟩ := State.holdsIn_of_recordIn h
  exact h.2.1

theorem State.recordIn_mem {s : State} {z : Zone} {b : Bale} (h : s.recordIn z = some b) : b ∈ s.bt.bales := by
  obtain ⟨_, _, h⟩ := State.holdsIn_of_recordIn h
  rw [h.1]; simp

/-- Where a record stands does not depend on anything but the list. -/
theorem State.recordIn_congr {s t : State} (h : t.bt.bales = s.bt.bales) (z : Zone) : t.recordIn z = s.recordIn z := by
  simp [State.recordIn, h]

theorem State.HoldsIn.congr {s t : State} {z : Zone} {older younger : List Bale} {b : Bale}
    (h : s.HoldsIn z older b younger) (e : t.bt.bales = s.bt.bales) : t.HoldsIn z older b younger := by
  unfold State.HoldsIn; rw [e]; exact h

@[simp] theorem State.modifyRecord_runClock (s : State) (z : Zone) (f : Bale → Bale) :
    (s.modifyRecord z f).bt.runClock = s.bt.runClock := rfl

@[simp] theorem State.modifyRecord_seqCounter (s : State) (z : Zone) (f : Bale → Bale) :
    (s.modifyRecord z f).bt.seqCounter = s.bt.seqCounter := rfl

theorem State.modifyRecord_bales (s : State) (z : Zone) (f : Bale → Bale) :
    (s.modifyRecord z f).bt.bales = modifyZone z f s.bt.bales := rfl

/-- Changing the record of a zone changes it in its place. -/
theorem State.HoldsIn.modifyRecord {s : State} {z : Zone} {older younger : List Bale} {b : Bale}
    (h : s.HoldsIn z older b younger) (f : Bale → Bale) :
    s.modifyRecord z f = { s with bt := { s.bt with bales := older ++ f b :: younger } } := by
  obtain ⟨h1, h2, h3⟩ := h
  simp [State.modifyRecord, h1, modifyZone_append f younger h3 h2]

/-- A record changed within its zone stays in its place. -/
theorem State.HoldsIn.modified {s : State} {z : Zone} {older younger : List Bale} {b : Bale}
    (h : s.HoldsIn z older b younger) (f : Bale → Bale) (hf : (f b).stage.zone = z) :
    (s.modifyRecord z f).HoldsIn z older (f b) younger := by
  rw [h.modifyRecord f]
  exact ⟨rfl, hf, h.2.2⟩

theorem State.modifyRecord_none {s : State} {z : Zone} (f : Bale → Bale) (h : s.recordIn z = none) :
    s.modifyRecord z f = s := by
  rw [State.recordIn_eq_none] at h
  simp [State.modifyRecord, modifyZone_empty f h]

/-- Where the change does nothing to the record found, it does nothing to the state. -/
theorem State.modifyRecord_id {s : State} {z : Zone} (f : Bale → Bale)
    (h : ∀ b, s.recordIn z = some b → f b = b) : s.modifyRecord z f = s := by
  cases hr : s.recordIn z with
  | none => exact State.modifyRecord_none f hr
  | some b =>
    obtain ⟨older, younger, hh⟩ := State.holdsIn_of_recordIn hr
    rw [hh.modifyRecord f, h b hr, ← hh.1]

/-- The record in a zone after a change that keeps it there. -/
theorem State.recordIn_modifyRecord_same (s : State) (z : Zone) (f : Bale → Bale)
    (hf : ∀ b, s.recordIn z = some b → (f b).stage.zone = z) :
    (s.modifyRecord z f).recordIn z = (s.recordIn z).map f := by
  cases hr : s.recordIn z with
  | none => rw [State.modifyRecord_none f hr, hr]; rfl
  | some b =>
    obtain ⟨older, younger, hh⟩ := State.holdsIn_of_recordIn hr
    exact (hh.modified f (hf b hr)).recordIn

/-- The records of the other zones after a change that keeps the record in its zone. -/
theorem State.recordIn_modifyRecord_ne (s : State) {z y : Zone} (hy : y ≠ z) (f : Bale → Bale)
    (hf : ∀ b, s.recordIn z = some b → (f b).stage.zone ≠ y) :
    (s.modifyRecord z f).recordIn y = s.recordIn y := by
  cases hr : s.recordIn z with
  | none => rw [State.modifyRecord_none f hr]
  | some b =>
    obtain ⟨older, younger, hh⟩ := State.holdsIn_of_recordIn hr
    rw [hh.modifyRecord f, State.recordIn, State.recordIn, hh.1]
    have h1 : inZone y (f b) = false := by simpa [inZone] using hf b hr
    have h2 : inZone y b = false := by simpa [inZone, hh.2.1] using hy.symm
    simp [List.find?_append, h1, h2]

/-- A WRAPPING record on the table with its section is what `wrapping` finds. -/
theorem State.HoldsIn.wrapping {s : State} {older younger : List Bale} {b : Bale} {w : WrapSection}
    (h : s.HoldsIn .table older b younger) (hs : b.stage = .wrapping) (hw : b.wrap = some w) :
    s.wrapping = some (b, w) := by
  simp [State.wrapping, h.recordIn, hs, hw]

theorem State.wrapping_some {s : State} {b : Bale} {w : WrapSection} (h : s.wrapping = some (b, w)) :
    s.recordIn .table = some b ∧ b.stage = .wrapping ∧ b.wrap = some w := by
  unfold State.wrapping at h
  split at h
  · rename_i c hc
    split at h
    · rename_i hs
      cases hw : c.wrap <;> simp_all
    · exact absurd h (by simp)
  · exact absurd h (by simp)

/-- In falling zones a record's place is the only one in its zone. -/
theorem ZonesFall.split {s : State} (hz : ZonesFall s) {older younger : List Bale} {b : Bale}
    (h : s.bt.bales = older ++ b :: younger) :
    (∀ x ∈ older, b.stage.zone.number < x.stage.zone.number) ∧
      (∀ x ∈ younger, x.stage.zone.number < b.stage.zone.number) := by
  unfold ZonesFall at hz
  rw [h, List.pairwise_append] at hz
  obtain ⟨_, h2, h3⟩ := hz
  rw [List.pairwise_cons] at h2
  exact ⟨fun x hx => h3 x hx b (by simp), fun x hx => h2.1 x hx⟩

theorem ZonesFall.holdsIn {s : State} (hz : ZonesFall s) {older younger : List Bale} {b : Bale}
    (h : s.bt.bales = older ++ b :: younger) : s.HoldsIn b.stage.zone older b younger := by
  refine ⟨h, rfl, fun x hx e => ?_⟩
  have := (hz.split h).1 x hx
  rw [e] at this
  exact absurd this (by simp)

/-- In falling zones the younger records leave the zone free too. -/
theorem ZonesFall.alone {s : State} (hz : ZonesFall s) {z : Zone} {older younger : List Bale} {b : Bale}
    (h : s.HoldsIn z older b younger) :
    (∀ x ∈ older, x.stage.zone ≠ z) ∧ (∀ x ∈ younger, x.stage.zone ≠ z) := by
  refine ⟨h.2.2, fun x hx e => ?_⟩
  have := (hz.split h.1).2 x hx
  rw [e, h.2.1] at this
  exact absurd this (by simp)

end Sys2Proof.Machine
end

