-- ==== Sys2Proof/Laws/Stages.lean ====
section
/-! SUPPORT. What a stage change, the chamber's follow-up, a closure and an eject grant make of the state, said once by
the record's place in the list. -/

namespace Sys2Proof.Machine

/-! ### The chamber -/

theorem State.dvTarget_eq (s : State) :
    s.dvTarget = driveCode s.mi.stop.filtered s.cu.lockout (s.recordIn .chamber).isSome s.cu.computedCode := by
  unfold State.dvTarget driveCode
  cases s.recordIn .chamber <;> simp

theorem State.fullTarget_eq (s : State) : s.fullTarget = fullFor (s.recordIn .chamber) s.mf.d.value := by
  unfold State.fullTarget fullFor
  cases s.recordIn .chamber <;> simp

/-- The chamber's follow-up writes BALE_FULL and the DV code, and nothing else. -/
theorem syncChamber_eq (s : State) :
    syncChamber s = { s with cu := { s.cu with
      dvCode := driveCode s.mi.stop.filtered s.cu.lockout (s.recordIn .chamber).isSome s.cu.computedCode
      baleFull := fullFor (s.recordIn .chamber) s.mf.d.value } } := by
  rw [← State.dvTarget_eq, ← State.fullTarget_eq]; rfl

theorem syncDv_eq (s : State) :
    syncDv s = { s with cu := { s.cu with
      dvCode := driveCode s.mi.stop.filtered s.cu.lockout (s.recordIn .chamber).isSome s.cu.computedCode } } := by
  rw [← State.dvTarget_eq]; rfl

/-- With BALE_FULL and the DV code already in line the follow-up changes nothing. -/
theorem syncChamber_same {s : State} (hd : s.cu.dvCode = s.dvTarget) (hf : s.cu.baleFull = s.fullTarget) :
    syncChamber s = s := by
  have : syncChamber s = { s with cu := { s.cu with dvCode := s.dvTarget, baleFull := s.fullTarget } } := rfl
  rw [this, ← hd, ← hf]

/-- With no chamber record the valve is not driven and BALE_FULL is off. -/
theorem syncChamber_none {s : State} (h : s.recordIn .chamber = none) :
    syncChamber s = { s with cu := { s.cu with dvCode := 0, baleFull := false } } := by
  rw [syncChamber_eq, h]; simp [driveCode, fullFor]

/-- A zone none of the listed records stands in is empty. -/
theorem State.recordIn_none_of {s : State} {z : Zone} {older younger : List Bale} {b : Bale}
    (h : s.bt.bales = older ++ b :: younger) (hb : b.stage.zone ≠ z) (ho : ∀ x ∈ older, x.stage.zone ≠ z)
    (hy : ∀ x ∈ younger, x.stage.zone ≠ z) : s.recordIn z = none := by
  rw [State.recordIn_eq_none, h]
  intro x hx
  simp only [List.mem_append, List.mem_cons] at hx
  rcases hx with hx | rfl | hx
  · exact ho x hx
  · exact hb
  · exact hy x hx

/-! ### Stage changes -/

/-- A stage change writes the record in its place, hands on the STAGE settings and informs the neighbours. -/
theorem State.HoldsIn.enterStage {s : State} {z : Zone} {older younger : List Bale} {b : Bale}
    (h : s.HoldsIn z older b younger) (st : Stage) :
    enterStage z st s = stageNeighbours st b.seq (setStageLatches st.zone b.seq
      { s with bt := { s.bt with bales := older ++ b.toStage st s.bt.runClock :: younger } }) := by
  simp only [Machine.enterStage, h.recordIn, h.modifyRecord]

/-- The grant of an eject, once said: the record in its place, HU, CU, the settings, and nothing else (R92). -/
theorem State.HoldsIn.grantEject {s : State} {older younger : List Bale} {b : Bale} (queued : Bool)
    (h : s.HoldsIn .chamber older b younger) (hy : ∀ x ∈ younger, x.stage.zone ≠ .chamber) :
    BalesBecome (older ++ b.granted s.bt.runClock :: younger) s (grantEject queued s) ∧
    (grantEject queued s).hu = s.hu.granted b.seq s.rs.constants ∧
    (grantEject queued s).cu = { s.cu with dvCode := 0, baleFull := false } ∧
    (s.nrstAsserted = false →
      Hands (stageSettings .table b.seq ++ (if queued then [⟨.a, .ejectGrant, 0, b.seq⟩] else [])) s
        (grantEject queued s)) ∧
    OnlyChanges (.bt :: .cu :: .hu :: arbiters) s (grantEject queued s) := by
  have he : State.HoldsIn { s.modifyRecord .chamber (fun x => { x with ejectRequested := false }) with
        hu := { s.hu with ejectSlot := none } } .chamber older { b with ejectRequested := false } younger := by
    rw [h.modifyRecord]
    exact ⟨rfl, h.2.1, h.2.2⟩
  let u : State := setStageLatches .table b.seq { s with
    bt := { s.bt with bales := older ++ b.granted s.bt.runClock :: younger }
    hu := { s.hu with ejectSlot := none, reservation := some b.seq } }
  have hu : u.recordIn .chamber = none :=
    State.recordIn_none_of (older := older) (younger := younger) (b := b.granted s.bt.runClock) rfl
      (by simp [Bale.granted, Stage.zone]) h.2.2 hy
  let v : State := { u with
    cu := { s.cu with dvCode := 0, baleFull := false }, hu := s.hu.granted b.seq s.rs.constants }
  have key : Machine.grantEject queued s = if queued then setLatch .a .ejectGrant 0 b.seq v else v := by
    unfold Machine.grantEject
    rw [h.recordIn]
    simp only [he.enterStage]
    have hX := syncChamber_none (s :=
      { setStageLatches Stage.ejecting.zone b.seq { s with
          bt := { s.bt with bales := older ++ b.granted s.bt.runClock :: younger }
          hu := { s.hu with ejectSlot := none } } with
        hu := { s.hu with ejectSlot := none, reservation := some b.seq } }) hu
    let timed (z : State) : State :=
      { z with hu := { z.hu with transferTimer := .running (z.rs.constants.transferTimeout * 1000) } }
    cases queued
    · exact congrArg timed hX
    · exact congrArg (fun z => setLatch .a .ejectGrant 0 b.seq (timed z)) hX
  have hS : s.nrstAsserted = false → Hands (stageSettings .table b.seq) s v := fun hn =>
    (Hands.stage .table b.seq (s := { s with
      bt := { s.bt with bales := older ++ b.granted s.bt.runClock :: younger }
      hu := { s.hu with ejectSlot := none, reservation := some b.seq } }) hn).congr rfl rfl
  rw [key]
  cases queued
  · refine ⟨rfl, rfl, rfl, fun hn => ?_, ?_⟩
    · simp only [Bool.false_eq_true, if_false, List.append_nil]
      exact hS hn
    · intro k hk
      cases k with
      | arbiter p => cases p <;> simp [arbiters] at hk
      | link p => cases p <;> rfl
      | _ => first | rfl | simp at hk
  · refine ⟨rfl, rfl, rfl, fun hn => ?_, ?_⟩
    · simp only [if_true]
      refine Hands.append (t := v) ?_ (Hands.one _ _ _ _ hn) (by simp [stageSettings, Setting.apart])
      exact hS hn
    · intro k hk
      cases k with
      | arbiter p => cases p <;> simp [arbiters] at hk
      | link p => cases p <;> rfl
      | _ => first | rfl | simp at hk

/-- Where the drive is in line and nothing it depends on has changed, the follow-up changes nothing. -/
theorem DriveInv.syncChamber {s t : State} (h : DriveInv s) (hc : t.cu = s.cu) (hm : t.mi.stop = s.mi.stop)
    (hd : t.mf.d = s.mf.d) (hr : t.recordIn .chamber = s.recordIn .chamber) : syncChamber t = t := by
  apply syncChamber_same
  · rw [hc, h.1, State.dvTarget_eq, State.dvTarget_eq, hc, hm, hr]
  · rw [hc, h.2.1, State.fullTarget_eq, State.fullTarget_eq, hd, hr]

/-- Replacing a record of another zone leaves the record of a zone. -/
theorem State.recordIn_replaced {s t : State} {z : Zone} {older younger : List Bale} {b c : Bale}
    (h : s.bt.bales = older ++ b :: younger) (ht : t.bt.bales = older ++ c :: younger) (hb : b.stage.zone ≠ z)
    (hc : c.stage.zone ≠ z) : t.recordIn z = s.recordIn z := by
  have h1 : inZone z b = false := by simpa [inZone] using hb
  have h2 : inZone z c = false := by simpa [inZone] using hc
  simp [State.recordIn, h, ht, List.find?_append, h1, h2]

/-- A stage change within the TABLE zone: the record in its place, the settings, and the silence counters at an entry to
WRAPPING. The chamber is not affected. -/
theorem State.HoldsIn.enterStage_table {s : State} {older younger : List Bale} {b : Bale}
    (h : s.HoldsIn .table older b younger) (hd : DriveInv s) (st : Stage) (hz : st.zone = .table) (he : st ≠ .ejecting) :
    Machine.enterStage .table st s =
      (if st = .wrapping then clearSilence else id) (setStageLatches .table b.seq
        { s with bt := { s.bt with bales := older ++ b.toStage st s.bt.runClock :: younger } }) := by
  have hr : State.recordIn
      { s with bt := { s.bt with bales := older ++ b.toStage st s.bt.runClock :: younger } } .chamber =
      s.recordIn .chamber :=
    State.recordIn_replaced h.1 rfl (by simp [h.2.1]) (by simp [Bale.toStage, hz])
  have hs := hd.syncChamber
    (t := setStageLatches .table b.seq
      { s with bt := { s.bt with bales := older ++ b.toStage st s.bt.runClock :: younger } }) rfl rfl rfl hr
  rw [h.enterStage, hz]
  cases st <;> first
    | (simp [Stage.zone] at hz; done)
    | exact absurd rfl he
    | exact congrArg clearSilence hs
    | exact hs

/-- An entry to FORMING, once said: the record in its place, CU with the code computed from the held D value, the STAGE
settings, and nothing else (R13 to R15, R69, R72, R73). -/
theorem State.HoldsIn.enterForming {s : State} {z : Zone} {older younger : List Bale} {b : Bale}
    (h : s.HoldsIn z older b younger) (hc : ∀ x ∈ older, x.stage.zone ≠ .chamber) :
    BalesBecome (older ++ { b with stage := .forming, formed := some (b.formed.getD s.bt.runClock) } :: younger) s
      (Machine.enterStage z .forming s) ∧
    ChamberBecomes (some { b with stage := .forming }) (codeFor s.rs.constants b.recipe s.mf.d.value)
      s.cu.netCatchTimer s (Machine.enterStage z .forming s) ∧
    (s.nrstAsserted = false → Hands (stageSettings .chamber b.seq) s (Machine.enterStage z .forming s)) ∧
    OnlyChanges (.bt :: .cu :: arbiters) s (Machine.enterStage z .forming s) := by
  have hb : b.toStage .forming s.bt.runClock =
      { b with stage := .forming, formed := some (b.formed.getD s.bt.runClock) } := by
    simp only [Bale.toStage, stampOnce]
    cases b.formed <;> simp
  let placed : State := { s with bt := { s.bt with
    bales := older ++ { b with stage := .forming, formed := some (b.formed.getD s.bt.runClock) } :: younger } }
  let c : State := setStageLatches .chamber b.seq placed
  let code := codeFor s.rs.constants b.recipe s.mf.d.value
  have hcr : c.recordIn .chamber = some { b with stage := .forming, formed := some (b.formed.getD s.bt.runClock) } :=
    State.HoldsIn.recordIn (older := older) (younger := younger) ⟨rfl, rfl, hc⟩
  have hrc : recomputeCode c = { c with cu := { c.cu with computedCode := code } } := by
    unfold recomputeCode
    rw [hcr]
    rfl
  have ht : Machine.enterStage z .forming s = { c with cu := { c.cu with
      computedCode := code, dvCode := driveCode s.mi.stop.filtered s.cu.lockout true code,
      baleFull := decide (b.recipe.targetDiameter ≤ s.mf.d.value) } } := by
    have h1 : Machine.enterStage z .forming s = syncChamber (recomputeCode c) := by
      rw [h.enterStage, hb]
      rfl
    have h2 : ({ c with cu := { c.cu with computedCode := code } } : State).recordIn .chamber = c.recordIn .chamber := rfl
    rw [h1, hrc, syncChamber_eq, h2, hcr]
    simp [fullFor, c, placed]
    rfl
  rw [ht]
  refine ⟨rfl, ?_, fun hn => ?_, ?_⟩
  · simp [ChamberBecomes, fullFor, c, placed, code]
  · exact (Hands.stage .chamber b.seq (s := placed) hn).congr rfl rfl
  · intro k hk
    cases k with
    | arbiter p => cases p <;> simp [arbiters] at hk
    | link p => cases p <;> rfl
    | _ => first | rfl | simp at hk

/-! ### Frames of the shared operations -/

theorem State.modifyRecord_frame (z : Zone) (f : Bale → Bale) (s : State) : OnlyChanges [.bt] s (s.modifyRecord z f) := by
  intro k hk
  cases k with
  | arbiter p => exact ⟨rfl, rfl, rfl⟩
  | link p => cases p <;> rfl
  | _ => first | rfl | simp at hk

theorem setStageLatches_frame (z : Zone) (q : Nat) (s : State) : OnlyChanges arbiters s (setStageLatches z q s) :=
  ((setLatch_frame .a .stage z.number q s).mono (by simp [arbiters])).trans
    (((setLatch_frame .b .stage z.number q _).mono (by simp [arbiters])).trans
      ((setLatch_frame .c .stage z.number q _).mono (by simp [arbiters])))

theorem stageNeighbours_frame (st : Stage) (q : Nat) (s : State) :
    OnlyChanges [.cu, .hu, .ds] s (stageNeighbours st q s) := by
  have hs : OnlyChanges [.cu, .hu, .ds] s (syncChamber s) := by
    intro k hk
    cases k with
    | arbiter p => exact ⟨rfl, rfl, rfl⟩
    | link p => cases p <;> rfl
    | _ => first | rfl | simp at hk
  cases st with
  | forming =>
    intro k hk
    have hr : OnlyChanges [.cu, .hu, .ds] s (recomputeCode s) := by
      unfold recomputeCode
      split
      · split
        · intro k hk
          cases k with
          | arbiter p => exact ⟨rfl, rfl, rfl⟩
          | link p => cases p <;> rfl
          | _ => first | rfl | simp at hk
        · exact .refl _ _
      · exact .refl _ _
    refine Block.same_trans (hr k hk) ?_
    cases k with
    | arbiter p => exact ⟨rfl, rfl, rfl⟩
    | link p => cases p <;> rfl
    | _ => first | rfl | simp at hk
  | ejecting =>
    intro k hk
    cases k with
    | arbiter p => exact ⟨rfl, rfl, rfl⟩
    | link p => cases p <;> rfl
    | _ => first | rfl | simp at hk
  | wrapping =>
    intro k hk
    cases k with
    | arbiter p => exact ⟨rfl, rfl, rfl⟩
    | link p => cases p <;> rfl
    | _ => first | rfl | simp at hk
  | _ => exact hs

/-- A stage change touches the records, the chamber, HU, DS and the arbiters, and nothing else. -/
theorem enterStage_frame (z : Zone) (st : Stage) (s : State) :
    OnlyChanges (.bt :: .cu :: .hu :: .ds :: arbiters) s (enterStage z st s) := by
  unfold enterStage
  split
  · exact ((State.modifyRecord_frame _ _ s).mono (by simp)).trans
      (((setStageLatches_frame _ _ _).mono (by simp +contextual)).trans
        ((stageNeighbours_frame _ _ _).mono (by simp +contextual [or_imp])))
  · exact .refl _ _

/-! ### Closures -/

/-- A closure removes the record, offers its report, hands on the STAGE settings unless by RESET, and informs the
neighbours. -/
theorem State.HoldsIn.closeRecord {s : State} {z : Zone} {older younger : List Bale} {b : Bale}
    (h : s.HoldsIn z older b younger) (reason : CloseReason) :
    closeRecord z reason s = closureNeighbours z b.seq reason
      (if reason = .reset then
        { s with bt := { s.bt with bales := older ++ younger }, rq := s.rq.offer (b.closedBy reason s.bt.runClock) }
      else setStageLatches z b.seq
        { s with bt := { s.bt with bales := older ++ younger }, rq := s.rq.offer (b.closedBy reason s.bt.runClock) }) := by
  simp only [Machine.closeRecord, h.recordIn, h.1, removeZone_append younger h.2.2 h.2.1]
  rfl

/-- A report reaches the queue as R157 says. -/
theorem ReportQueue.arrives (q : ReportQueue) (r : Report) : Arrives r q (q.offer r) := by
  refine ⟨fun h => ?_, fun h hh => ?_, fun h hh => ?_⟩ <;> unfold ReportQueue.offer
  · rw [if_pos h]
  · rw [if_neg (by omega), hh]
  · obtain ⟨x, hx⟩ := Option.isSome_iff_exists.mp hh
    rw [if_neg (by omega), hx]

end Sys2Proof.Machine
end

