-- ==== Sys2Proof/Laws/Coverage.lean ====
section
/-! SUPPORT. The wrap: the map of a lay as the statements write it, and what the lay, the revolution and the silence step
leave as it was. -/

namespace Sys2Proof.Machine

/-! ### The map -/

theorem addLayer_eq (circ pos w : Nat) (l : List Nat) (k : Nat) :
    addLayer circ pos w k l = l.mapIdx (fun i n => if covers circ pos w (k + i) then stepSaturating n 31 else n) := by
  induction l generalizing k with
  | nil => rfl
  | cons n ns ih =>
    rw [addLayer, ih, List.mapIdx_cons]
    simp [Nat.add_assoc, Nat.add_comm 1]

theorem bandWidth_eq (k : Constants) (r : Recipe) (c : Nat) :
    bandWidth k r c = min (k.filmWidth * (1000 - r.neck) / 100) (c - 1) := by
  simp only [bandWidth]
  split <;> omega

/-- The map of a lay (R114 to R116). -/
theorem addLayer_layersAfter (k : Constants) (r : Recipe) (w : WrapSection) :
    addLayer w.circ w.surfacePos (bandWidth k r w.circ) 0 w.layers = layersAfter k r w := by
  rw [addLayer_eq, layersAfter, bandWidth_eq]
  congr 1
  funext i n
  simp [covers, sectorCentre]

/-- A film total as the meanings add it up is the total of the statements (R142, log entry 26). -/
theorem filmSum_eq_filmTotal (before taken : Nat) : filmSum before taken = filmTotal before taken := rfl

/-- Every film total fits four bytes (Table 6-1). -/
theorem filmSum_le (film mm : Nat) : filmSum film mm ≤ 4294967295 := by
  unfold filmSum
  split
  · assumption
  · have := (Config.freeFilm (film + mm)).isLt
    omega

theorem layersAfter_length (k : Constants) (r : Recipe) (w : WrapSection) :
    (layersAfter k r w).length = w.layers.length := by simp [layersAfter]

/-- The lowest count reaches a target exactly when every count does. -/
theorem le_lowestCount (l : List Nat) (h : l ≠ []) (t : Nat) : t ≤ lowestCount l ↔ ∀ x ∈ l, t ≤ x := by
  induction l with
  | nil => exact absurd rfl h
  | cons n ns ih =>
    cases ns with
    | nil => simp [lowestCount]
    | cons m ms =>
      rw [lowestCount]
      have := ih (by simp)
      simp only [List.mem_cons, forall_eq_or_imp] at this ⊢
      rw [← this]
      omega

/-! ### Frames -/

theorem State.modifyDispenser_frame (k : Dispenser) (f : DispenserRecord → DispenserRecord) (s : State) :
    OnlyChanges [.ds] s (s.modifyDispenser k f) := by
  intro k hk
  cases k with
  | arbiter p => exact ⟨rfl, rfl, rfl⟩
  | link p => cases p <;> rfl
  | _ => first | rfl | simp at hk

theorem chargeFilm_frame (k : Dispenser) (b : Bale) (s : State) : OnlyChanges [.bt, .ds] s (chargeFilm k b s) := by
  have h : OnlyChanges [.bt, .ds] s ((s.modifyWrap (fun w => w.addFilm k ((s.ds.film.get k).taken
      (s.layCharge k b)))).modifyDispenser k (fun x =>
        x.afterCharge (filmNumerator s.rs.constants b.netDiameter (s.ds.film.get k).residue) (100 + b.recipe.s))) :=
    ((State.modifyRecord_frame _ _ s).mono (by simp)).trans ((State.modifyDispenser_frame _ _ _).mono (by simp))
  unfold chargeFilm
  simp only
  split
  · exact h.trans ((State.modifyRecord_frame _ _ _).mono (by simp))
  · exact h

theorem testCompletion_frame (s : State) : OnlyChanges (.bt :: .cu :: .hu :: .ds :: arbiters) s (testCompletion s) := by
  unfold testCompletion
  split
  · split
    · exact (enterStage_frame _ _ s).trans ((setLatch_frame _ _ _ _ _).mono (by simp [arbiters]))
    · exact .refl _ _
  · exact .refl _ _

theorem emptyDispenser_frame (k : Dispenser) (q : Nat) (s : State) :
    OnlyChanges [.ds, .arbiter .b] s (emptyDispenser k q s) :=
  ((State.modifyDispenser_frame _ _ s).mono (by simp)).trans ((setLatch_frame _ _ _ _ _).mono (by simp))

theorem countedLay_frame (k : Dispenser) (b : Bale) (w : WrapSection) (s : State) :
    OnlyChanges (.bt :: .cu :: .hu :: .ds :: arbiters) s (countedLay k b w s) := by
  have h : OnlyChanges (.bt :: .cu :: .hu :: .ds :: arbiters) s (testCompletion (chargeFilm k b
      (s.modifyWrap (fun x => x.lay k (bandWidth s.rs.constants b.recipe w.circ))))) :=
    ((State.modifyRecord_frame _ _ s).mono (by simp)).trans
      (((chargeFilm_frame _ _ _).mono (by simp +contextual [or_imp])).trans (testCompletion_frame _))
  unfold countedLay
  simp only
  split
  · exact h.trans ((emptyDispenser_frame _ _ _).mono (by simp [arbiters]))
  · exact h

/-- A lay position touches the records, the chamber, HU, DS and the arbiters, and nothing else. -/
theorem layPosition_frame (k : Dispenser) (s : State) :
    OnlyChanges (.bt :: .cu :: .hu :: .ds :: arbiters) s (layPosition k s) := by
  unfold layPosition
  split
  · split
    · exact countedLay_frame _ _ _ s
    · exact .refl _ _
  · exact .refl _ _

/-- The revolution part of a TABLE_INDEX touches no more. -/
theorem stepRevolution_frame (s : State) : OnlyChanges (.bt :: .cu :: .hu :: .ds :: arbiters) s (stepRevolution s) := by
  unfold stepRevolution capWrap
  have h : ∀ f, OnlyChanges (.bt :: .cu :: .hu :: .ds :: arbiters) s (s.modifyWrap f) := fun f =>
    (State.modifyRecord_frame _ _ s).mono (by simp)
  split
  · split
    · exact (h _).trans (((State.modifyRecord_frame _ _ _).mono (by simp)).trans
        ((enterStage_frame _ _ _).trans ((setLatch_frame _ _ _ _ _).mono (by simp [arbiters]))))
    · exact h _
  · exact h _

theorem stepSilence_frame (k : Dispenser) (q : Nat) (s : State) :
    OnlyChanges [.bt, .ds, .arbiter .b] s (stepSilence k q s) := by
  unfold stepSilence
  simp only
  have h : ∀ f, OnlyChanges [.bt, .ds, .arbiter .b] s (s.modifyDispenser k f) := fun f =>
    (State.modifyDispenser_frame _ _ s).mono (by simp)
  split
  · exact (h _).trans (((State.modifyDispenser_frame _ _ _).mono (by simp)).trans
      (((State.modifyRecord_frame _ _ _).mono (by simp)).trans ((setLatch_frame _ _ _ _ _).mono (by simp))))
  · exact h _

/-- The silence step touches the records, DS and port B's arbiter, and nothing else. -/
theorem stepSilences_frame (s : State) : OnlyChanges [.bt, .ds, .arbiter .b] s (stepSilences s) := by
  unfold stepSilences
  split
  · exact (stepSilence_frame _ _ s).trans (stepSilence_frame _ _ _)
  · exact .refl _ _

end Sys2Proof.Machine
end

