-- ==== Sys2Proof/Laws/Drive.lean ====
section
/-! SUPPORT. The density drive and BALE_FULL (`DriveInv`): which changes leave them in line, and that a stage change and a
lay put them in line again. -/

namespace Sys2Proof.Machine

/-- What the drive depends on has not changed. -/
theorem DriveInv.congr {s t : State} (h : DriveInv s) (hc : t.cu = s.cu) (hm : t.mi.stop = s.mi.stop)
    (hd : t.mf.d = s.mf.d) (hr : t.recordIn .chamber = s.recordIn .chamber)
    (hn : t.nrstAsserted = true → t.bt.bales = []) : DriveInv t := by
  refine ⟨?_, ?_, hn⟩
  · rw [hc, h.1, State.dvTarget_eq, State.dvTarget_eq, hc, hm, hr]
  · rw [hc, h.2.1, State.fullTarget_eq, State.fullTarget_eq, hd, hr]

/-- The follow-up puts the drive in line. -/
theorem syncChamber_drive {s : State} (hn : s.nrstAsserted = false) : DriveInv (syncChamber s) :=
  ⟨rfl, rfl, fun h => absurd h (by simp [hn])⟩

/-- A change of a record that keeps its stage and its recipe. -/
theorem DriveInv.modifyRecord {s : State} (h : DriveInv s) (hn : s.nrstAsserted = false) (z : Zone) (f : Bale → Bale)
    (hf : ∀ b, (f b).stage = b.stage ∧ (f b).recipe = b.recipe) : DriveInv (s.modifyRecord z f) := by
  have hc : ∃ g : Bale → Bale, (∀ b, (g b).stage = b.stage ∧ (g b).recipe = b.recipe) ∧
      (s.modifyRecord z f).recordIn .chamber = (s.recordIn .chamber).map g := by
    by_cases hz : z = .chamber
    · subst hz
      exact ⟨f, hf, State.recordIn_modifyRecord_same s _ f (fun b hb => by rw [(hf b).1]; exact State.recordIn_zone hb)⟩
    · refine ⟨id, by simp, ?_⟩
      rw [State.recordIn_modifyRecord_ne s (fun e => hz e.symm) f
        (fun b hb => by rw [(hf b).1, State.recordIn_zone hb]; exact hz)]
      simp
  obtain ⟨g, hg, e⟩ := hc
  have h1 : (s.modifyRecord z f).dvTarget = s.dvTarget := by
    rw [State.dvTarget_eq, State.dvTarget_eq, e]
    cases s.recordIn .chamber <;> simp
  have h2 : (s.modifyRecord z f).fullTarget = s.fullTarget := by
    rw [State.fullTarget_eq, State.fullTarget_eq, e]
    cases s.recordIn .chamber <;> simp [fullFor, hg]
  exact ⟨by rw [h1]; exact h.1, by rw [h2]; exact h.2.1, fun h => absurd h (by simp [hn])⟩

theorem DriveInv.modifyWrap {s : State} (h : DriveInv s) (hn : s.nrstAsserted = false)
    (f : WrapSection → WrapSection) : DriveInv (s.modifyWrap f) :=
  h.modifyRecord hn .table (fun b => { b with wrap := b.wrap.map f }) (fun _ => ⟨rfl, rfl⟩)

theorem DriveInv.flagRecord {s : State} (h : DriveInv s) (hn : s.nrstAsserted = false) (z : Zone)
    (f : RecordFlags → RecordFlags) : DriveInv (s.flagRecord z f) :=
  h.modifyRecord hn z (fun b => { b with flags := f b.flags }) (fun _ => ⟨rfl, rfl⟩)

theorem stageNeighbours_drive (st : Stage) (q : Nat) {s : State} (hn : s.nrstAsserted = false) :
    DriveInv (stageNeighbours st q s) := by
  cases st with
  | forming => exact syncChamber_drive (by simpa using hn)
  | ejecting => exact syncChamber_drive (s := { s with hu := { s.hu with reservation := some q } }) hn
  | wrapping =>
    exact (syncChamber_drive hn).congr (t := clearSilence (syncChamber s)) rfl rfl rfl rfl
      (fun h => absurd h (by simp [hn]))
  | _ => exact syncChamber_drive hn

/-- A stage change leaves the drive in line. -/
theorem enterStage_drive (z : Zone) (st : Stage) {s : State} (hn : s.nrstAsserted = false) (h : DriveInv s) :
    DriveInv (enterStage z st s) := by
  unfold enterStage
  split
  · exact stageNeighbours_drive st _ (by simpa using hn)
  · exact h

theorem chargeFilm_drive (k : Dispenser) (b : Bale) {s : State} (hn : s.nrstAsserted = false) (h : DriveInv s) :
    DriveInv (chargeFilm k b s) := by
  have h1 : DriveInv ((s.modifyWrap (fun w => w.addFilm k ((s.ds.film.get k).taken (s.layCharge k b)))).modifyDispenser
      k (fun x => x.afterCharge (filmNumerator s.rs.constants b.netDiameter (s.ds.film.get k).residue)
        (100 + b.recipe.s))) :=
    (h.modifyWrap hn _).congr rfl rfl rfl rfl (fun e => absurd e (by simp [hn]))
  unfold chargeFilm
  simp only
  split
  · exact h1.flagRecord hn .table _
  · exact h1

/-- A lay position leaves the drive in line. -/
theorem layPosition_drive (k : Dispenser) {s : State} (hn : s.nrstAsserted = false) (h : DriveInv s) :
    DriveInv (layPosition k s) := by
  unfold layPosition
  split
  · rename_i b w _
    split
    · have h1 : DriveInv (s.modifyWrap (fun x => x.lay k (bandWidth s.rs.constants b.recipe w.circ))) :=
        h.modifyWrap hn _
      have hn1 : (s.modifyWrap (fun x => x.lay k (bandWidth s.rs.constants b.recipe w.circ))).nrstAsserted = false := hn
      have hc : DriveInv (testCompletion (chargeFilm k b
          (s.modifyWrap (fun x => x.lay k (bandWidth s.rs.constants b.recipe w.circ))))) := by
        generalize s.modifyWrap (fun x => x.lay k (bandWidth s.rs.constants b.recipe w.circ)) = s1 at h1 hn1 ⊢
        have h2 := chargeFilm_drive k b hn1 h1
        have hn2 : (chargeFilm k b s1).nrstAsserted = false := (chargeFilm_frame k b s1 .nrst (by simp)).trans hn1
        unfold testCompletion
        split
        · split
          · have h3 := enterStage_drive .table .wrapped hn2 h2
            refine h3.congr rfl rfl rfl rfl (fun e => ?_)
            rw [setLatch_nrstAsserted, enterStage_nrstAsserted, hn2] at e
            cases e
          · exact h2
        · exact h2
      unfold countedLay
      simp only
      split
      · refine hc.congr rfl rfl rfl rfl (fun e => ?_)
        exact hc.2.2 (by simpa [emptyDispenser] using e)
      · exact hc
    · exact h
  · exact h

end Sys2Proof.Machine
end

