-- ==== Sys2Proof/Laws/Images.lean ====
section
/-! SUPPORT. The lengths of the images and of their parts, and where their fields stand (Table 10-4). -/

namespace Sys2Proof.Machine

@[simp] theorem length_byte1 (n : Nat) : (byte1 n).length = 1 := rfl
@[simp] theorem length_byte2 (n : Nat) : (byte2 n).length = 2 := rfl
@[simp] theorem length_byte4 (n : Nat) : (byte4 n).length = 4 := rfl
@[simp] theorem length_flag1 (b : Bool) : (flag1 b).length = 1 := rfl
@[simp] theorem length_signed1 (i : Int) : (signed1 i).length = 1 := rfl
@[simp] theorem length_signed2 (i : Int) : (signed2 i).length = 2 := rfl

@[simp] theorem length_recipeBlock (r : Recipe) : (recipeBlock r).length = 24 := by
  simp only [recipeBlock, List.length_append, length_byte1, length_byte2]

@[simp] theorem length_breakPart (e : BreakEntry) : (breakPart e).length = 8 := by
  simp only [breakPart, List.length_append, length_byte1, length_byte2, length_byte4]

/-- The recipe block ends the base part, 66 bytes from its start. -/
theorem basePart_split (b : Bale) : ∃ front, front.length = 66 ∧ basePart b = front ++ recipeBlock b.recipe :=
  ⟨_, by simp only [List.length_append, length_byte1, length_byte2, length_byte4, length_flag1], rfl⟩

/-- The first seven bytes of the base part name the record, its stage, its reason and what is present. -/
theorem basePart_head (b : Bale) :
    ∃ rest, basePart b =
      (byte2 b.seq ++ byte1 b.recipeIndex ++ byte1 b.stage.code ++ byte1 (closeReasonCode b.closeReason) ++
        byte2 b.presence) ++ rest := by
  unfold basePart
  repeat rw [List.append_assoc (byte2 b.seq ++ byte1 b.recipeIndex ++ byte1 b.stage.code ++
    byte1 (closeReasonCode b.closeReason) ++ byte2 b.presence)]
  exact ⟨_, rfl⟩

@[simp] theorem length_basePart (b : Bale) : (basePart b).length = 90 := by
  obtain ⟨front, h, e⟩ := basePart_split b
  rw [e, List.length_append, h, length_recipeBlock]

/-- The counts end the wrap part, 20 bytes from its start. -/
theorem wrapPart_split (w : WrapSection) :
    ∃ front, front.length = 20 ∧ wrapPart w = front ++ w.layers.map (fun n => BitVec.ofNat 8 n) :=
  ⟨_, by simp only [List.length_append, length_byte1, length_byte2, length_byte4], rfl⟩

@[simp] theorem length_wrapPart (w : WrapSection) : (wrapPart w).length = 20 + w.layers.length := by
  obtain ⟨front, h, e⟩ := wrapPart_split w
  rw [e, List.length_append, h, List.length_map]

theorem length_breakParts (l : List BreakEntry) : (l.flatMap breakPart).length = 8 * l.length := by
  induction l with
  | nil => rfl
  | cons e l ih => rw [List.flatMap_cons, List.length_append, length_breakPart, ih, List.length_cons]; omega

/-! ### Where a field stands -/

/-- A field that ends a list stands at the length of what comes before it. -/
theorem CarriesAt.last {xs field : List Byte} {offset : Nat} (h : xs.length = offset) :
    CarriesAt (xs ++ field) offset field := by
  rw [CarriesAt, List.drop_left' h, List.take_length]

/-- A field that stands in a list stands there in a longer one. -/
theorem CarriesAt.append {xs ys field : List Byte} {offset : Nat} (h : CarriesAt xs offset field)
    (hl : offset + field.length ≤ xs.length) : CarriesAt (xs ++ ys) offset field := by
  unfold CarriesAt at *
  rw [List.drop_append_of_le_length (by omega), List.take_append_of_le_length (by simp; omega), h]

/-- A field that stands behind a prefix. -/
theorem CarriesAt.behind {xs ys field : List Byte} {offset : Nat} (h : CarriesAt ys offset field) :
    CarriesAt (xs ++ ys) (xs.length + offset) field := by
  unfold CarriesAt at *
  rw [List.drop_append, List.drop_eq_nil_of_le (by omega), List.nil_append, Nat.add_sub_cancel_left, h]

/-- The base part's fields keep their offsets in the image. -/
theorem carriesAt_base {b : Bale} {offset : Nat} {field : List Byte} (h : CarriesAt (basePart b) offset field)
    (hl : offset + field.length ≤ 90) : CarriesAt (baleImage b) offset field :=
  h.append (by rw [length_basePart]; exact hl)

/-- The recipe block's fields stand 66 bytes on in the image. -/
theorem carriesAt_recipe {b : Bale} {offset : Nat} {field : List Byte}
    (h : CarriesAt (recipeBlock b.recipe) offset field) (hl : offset + field.length ≤ 24) :
    CarriesAt (baleImage b) (66 + offset) field := by
  obtain ⟨front, hf, e⟩ := basePart_split b
  exact carriesAt_base (by rw [e, ← hf]; exact h.behind) (by omega)

/-- The wrap part's fields stand 90 bytes on in the image. -/
theorem carriesAt_wrap {b : Bale} {w : WrapSection} {offset : Nat} {field : List Byte} (hw : b.wrap = some w)
    (h : CarriesAt (wrapPart w) offset field) (hl : offset + field.length ≤ 20 + w.layers.length) :
    CarriesAt (baleImage b) (90 + offset) field := by
  have : baleImage b = basePart b ++ (wrapPart w ++ w.breaks.flatMap breakPart) := by rw [baleImage, hw]
  rw [this, ← length_basePart b]
  exact (h.append (by rw [length_wrapPart]; exact hl)).behind

/-- Break entry `k` stands 8 × k bytes into the entries. -/
theorem carriesAt_breaks {l : List BreakEntry} {k : Nat} {e : BreakEntry} (h : l[k]? = some e) :
    CarriesAt (l.flatMap breakPart) (8 * k) (breakPart e) := by
  induction l generalizing k with
  | nil => simp at h
  | cons x l ih =>
    rw [List.flatMap_cons]
    cases k with
    | zero =>
      cases h
      rw [CarriesAt, Nat.mul_zero, List.drop_zero, List.take_left]
    | succ k =>
      rw [Nat.mul_succ, Nat.add_comm, ← length_breakPart x]
      exact (ih (by simpa using h)).behind

end Sys2Proof.Machine
end

