-- ==== Sys2Proof/Laws/Numbers.lean ====
section
/-! SUPPORT. Numbers: sets of marks and their bits (R193), clamping (00_scope.md, 4.2), the listed values of R60 and R177,
and the ranges of the values read from a payload. -/

namespace Sys2Proof.Machine

/-! ### Marks -/

theorem marks_testBit (l : List Bool) (k : Nat) : (marks l).testBit k = l.getD k false := by
  induction l generalizing k with
  | nil => simp [marks]
  | cons b l ih =>
    cases k with
    | zero => cases b <;> simp [marks, Nat.testBit_zero]
    | succ k =>
      have : marks (b :: l) / 2 = marks l := by
        cases b <;> simp [marks]; omega
      rw [Nat.testBit_succ, this, ih]
      rfl

theorem marks_lt (l : List Bool) : marks l < 2 ^ l.length := by
  induction l with
  | nil => simp [marks]
  | cons b l ih => cases b <;> simp [marks, Nat.pow_succ] <;> omega

theorem hasMark_eq (n k : Nat) : hasMark n k = n.testBit k := by
  simp [hasMark, Nat.testBit, Nat.shiftRight_eq_div_pow]

/-! ### Clamping -/

theorem clampNat_eq (v lo hi : Nat) (h : lo ≤ hi) : clampNat v lo hi = max lo (min hi v) := by
  unfold clampNat
  repeat' split
  all_goals omega

theorem clampInt_eq (v lo hi : Int) (h : lo ≤ hi) : clampInt v lo hi = max lo (min hi v) := by
  unfold clampInt
  repeat' split
  all_goals omega

theorem clampNat_range (v lo hi : Nat) (h : lo ≤ hi) : lo ≤ clampNat v lo hi ∧ clampNat v lo hi ≤ hi := by
  rw [clampNat_eq v lo hi h]
  omega

/-- An altered field is within its range; one not altered is the old one. -/
theorem alterNat_range (alter : Bool) (w old lo hi : Nat) (h : lo ≤ hi) (ho : lo ≤ old ∧ old ≤ hi) :
    lo ≤ alterNat alter w old lo hi ∧ alterNat alter w old lo hi ≤ hi := by
  cases alter
  · exact ho
  · exact clampNat_range w lo hi h

/-- A clamp mark says that the field was altered and is not what was written. -/
theorem clampMark_iff (alter : Bool) (w old lo hi : Nat) :
    clampMark alter w lo hi = true ↔ alter = true ∧ alterNat alter w old lo hi ≠ w := by
  cases alter <;> simp [clampMark, alterNat]

/-! ### Listed values -/

theorem legalPeriod_eq (n : Nat) : legalPeriod n = roundedUp [10, 20, 50, 100] 200 n := by
  simp only [legalPeriod, roundedUp, List.find?]
  by_cases h1 : n ≤ 10 <;> by_cases h2 : n ≤ 20 <;> by_cases h3 : n ≤ 50 <;> by_cases h4 : n ≤ 100 <;>
    simp [h1, h2, h3, h4]

theorem legalTrigger_eq (n : Nat) : legalTrigger n = roundedUp [1, 4, 8, 12] 16 n := by
  simp only [legalTrigger, roundedUp, List.find?]
  by_cases h1 : n ≤ 1 <;> by_cases h2 : n ≤ 4 <;> by_cases h3 : n ≤ 8 <;> by_cases h4 : n ≤ 12 <;>
    simp [h1, h2, h3, h4]

/-! ### Values read from a payload -/

theorem nat1_lt (pl : List Byte) (k : Nat) : nat1 pl k < 256 := (pl.getD k 0).isLt

theorem nat2_lt (pl : List Byte) (k : Nat) : nat2 pl k < 65536 := by
  have h1 := nat1_lt pl k
  have h2 := nat1_lt pl (k + 1)
  unfold nat2
  omega

theorem int2_range (pl : List Byte) (k : Nat) : -32768 ≤ int2 pl k ∧ int2 pl k ≤ 32767 := by
  have h := nat2_lt pl k
  unfold int2
  split <;> omega

end Sys2Proof.Machine
end

