-- ==== Sys2Proof/Laws/Requests.lean ====
section
/-! SUPPORT. Taking a request, once said: what comes before the owning block (`beforeTake`), the checks common to all
commands, and what the response changes (`deliver`). -/

namespace Sys2Proof.Machine

/-! ### Before the owning block -/

@[simp] theorem loseResponse_nrstAsserted (s : State) : (loseResponse s).nrstAsserted = s.nrstAsserted := by
  unfold loseResponse; split <;> rfl

/-- The lost response changes port C's link unit and its LINK latch. -/
theorem loseResponse_frame (s : State) : OnlyChanges [.link .c, .arbiter .c] s (loseResponse s) := by
  unfold loseResponse
  split
  · refine OnlyChanges.trans ?_ ((setLatch_frame _ _ _ _ _).mono (by simp))
    intro k hk
    cases k with
    | arbiter q => exact ⟨rfl, rfl, rfl⟩
    | link q => cases q <;> first | rfl | simp at hk
    | _ => rfl
  · exact .refl _ _

/-- The FRAMES step and the discard of the image change the port's link unit. -/
theorem count_frame (p : Port) (keep : Prop) [Decidable keep] (s : State) :
    OnlyChanges [.link p] s (if keep then stepFrames p s else (stepFrames p s).setImage p none) := by
  intro k hk
  split <;> (cases p <;> (cases k with
    | arbiter q => exact ⟨rfl, rfl, rfl⟩
    | link q => cases q <;> first | rfl | simp at hk
    | _ => rfl))

theorem beforeTake_eq (p : Port) (code : Byte) (s : State) :
    beforeTake p code s =
      (if commandOfCode code = some .readNext then stepFrames p (if s.loses p then loseResponse s else s)
      else (stepFrames p (if s.loses p then loseResponse s else s)).setImage p none) := by
  have : (if s.loses p then loseResponse s else s) = (if p = .c then loseResponse s else s) := by
    cases p with
    | a => rfl
    | b => rfl
    | c =>
      cases hb : s.lc.buffer <;> simp [State.loses, loseResponse, hb]
  rw [this]; rfl

/-- The taking of a request changes the port's link unit, and port C's LINK latch where a response is lost. -/
theorem beforeTake_frame (p : Port) (code : Byte) (s : State) :
    OnlyChanges (takeBlocks p s) s (beforeTake p code s) := by
  rw [beforeTake_eq, takeBlocks]
  cases hl : s.loses p with
  | false => exact count_frame p _ s
  | true =>
    have hp : p = .c := by
      cases p <;> first | rfl | simp [State.loses] at hl
    subst hp
    exact (loseResponse_frame s).trans ((count_frame .c _ _).mono (by simp))

/-- Nothing is lost on ports A and B. -/
@[simp] theorem takeBlocks_a (s : State) : takeBlocks .a s = [.link .a] := rfl
@[simp] theorem takeBlocks_b (s : State) : takeBlocks .b s = [.link .b] := rfl

theorem takeBlocks_mem {p : Port} {s : State} {k : Block} (h : k ∈ takeBlocks p s) : k = .link p ∨ k = .arbiter .c := by
  unfold takeBlocks at h
  split at h
  · simpa using h
  · exact .inl (by simpa using h)

theorem link_mem_takeBlocks (p : Port) (s : State) : Block.link p ∈ takeBlocks p s := by
  unfold takeBlocks; split <;> simp

/-- A part the taking does not change reads the same before and after it. -/
theorem beforeTake_same {k : Block} (p : Port) (code : Byte) (s : State) (h1 : k ≠ .link p) (h2 : k ≠ .arbiter .c) :
    k.same s (beforeTake p code s) :=
  beforeTake_frame p code s k (fun h => (takeBlocks_mem h).elim h1 h2)

@[simp] theorem beforeTake_pending (p : Port) (code : Byte) (s : State) :
    (beforeTake p code s).pending = s.pending := beforeTake_same (k := .pending) p code s (by simp) (by simp)
@[simp] theorem beforeTake_nrstAsserted (p : Port) (code : Byte) (s : State) :
    (beforeTake p code s).nrstAsserted = s.nrstAsserted := beforeTake_same (k := .nrst) p code s (by simp) (by simp)
@[simp] theorem beforeTake_straps (p : Port) (code : Byte) (s : State) :
    (beforeTake p code s).straps = s.straps := beforeTake_same (k := .straps) p code s (by simp) (by simp)
@[simp] theorem beforeTake_bt (p : Port) (code : Byte) (s : State) :
    (beforeTake p code s).bt = s.bt := beforeTake_same (k := .bt) p code s (by simp) (by simp)
@[simp] theorem beforeTake_mf (p : Port) (code : Byte) (s : State) :
    (beforeTake p code s).mf = s.mf := beforeTake_same (k := .mf) p code s (by simp) (by simp)
@[simp] theorem beforeTake_mi (p : Port) (code : Byte) (s : State) :
    (beforeTake p code s).mi = s.mi := beforeTake_same (k := .mi) p code s (by simp) (by simp)
@[simp] theorem beforeTake_rs (p : Port) (code : Byte) (s : State) :
    (beforeTake p code s).rs = s.rs := beforeTake_same (k := .rs) p code s (by simp) (by simp)
@[simp] theorem beforeTake_cu (p : Port) (code : Byte) (s : State) :
    (beforeTake p code s).cu = s.cu := beforeTake_same (k := .cu) p code s (by simp) (by simp)
@[simp] theorem beforeTake_hu (p : Port) (code : Byte) (s : State) :
    (beforeTake p code s).hu = s.hu := beforeTake_same (k := .hu) p code s (by simp) (by simp)
@[simp] theorem beforeTake_ds (p : Port) (code : Byte) (s : State) :
    (beforeTake p code s).ds = s.ds := beforeTake_same (k := .ds) p code s (by simp) (by simp)
@[simp] theorem beforeTake_rq (p : Port) (code : Byte) (s : State) :
    (beforeTake p code s).rq = s.rq := beforeTake_same (k := .rq) p code s (by simp) (by simp)
@[simp] theorem beforeTake_freeCount (p : Port) (code : Byte) (s : State) :
    (beforeTake p code s).freeCount = s.freeCount := beforeTake_same (k := .freeCount) p code s (by simp) (by simp)
@[simp] theorem beforeTake_recordIn (p : Port) (code : Byte) (s : State) (z : Zone) :
    (beforeTake p code s).recordIn z = s.recordIn z := by simp [State.recordIn]
@[simp] theorem beforeTake_recordOf (p : Port) (code : Byte) (s : State) (q : Nat) :
    (beforeTake p code s).recordOf q = s.recordOf q := by simp [State.recordOf]
@[simp] theorem beforeTake_seqIn (p : Port) (code : Byte) (s : State) (z : Zone) :
    (beforeTake p code s).seqIn z = s.seqIn z := by simp [State.seqIn]
@[simp] theorem beforeTake_wrapping (p : Port) (code : Byte) (s : State) :
    (beforeTake p code s).wrapping = s.wrapping := by simp [State.wrapping]

/-- Where no response is lost the taking of a request touches no arbiter. -/
theorem beforeTake_na (p : Port) (code : Byte) (s : State) (h : s.loses p = false) :
    (beforeTake p code s).na = s.na := by
  rw [beforeTake_eq, h]
  simp only [Bool.false_eq_true, if_false]
  split <;> (cases p <;> rfl)

@[simp] theorem beforeTake_na_a (code : Byte) (s : State) : (beforeTake .a code s).na = s.na :=
  beforeTake_na .a code s rfl
@[simp] theorem beforeTake_na_b (code : Byte) (s : State) : (beforeTake .b code s).na = s.na :=
  beforeTake_na .b code s rfl

@[simp] theorem loseResponse_plan (q : Port) (s : State) : ((loseResponse s).na.get q).plan = (s.na.get q).plan := by
  unfold loseResponse; split
  · simp only [countTargetError, setLatch_plan]; rfl
  · rfl

@[simp] theorem loseResponse_current (q : Port) (s : State) :
    ((loseResponse s).na.get q).current = (s.na.get q).current := by
  unfold loseResponse; split
  · simp only [countTargetError, setLatch_current]; rfl
  · rfl

/-- The plans and the current notices are as they were. -/
theorem beforeTake_plan_current (p q : Port) (code : Byte) (s : State) :
    ((beforeTake p code s).na.get q).plan = (s.na.get q).plan ∧
      ((beforeTake p code s).na.get q).current = (s.na.get q).current := by
  cases h : s.loses p with
  | false => rw [beforeTake_na p code s h]; exact ⟨rfl, rfl⟩
  | true =>
    have : (beforeTake p code s).na = (loseResponse s).na := by
      rw [beforeTake_eq, h]
      simp only [if_true]
      split <;> (cases p <;> rfl)
    rw [this]
    exact ⟨loseResponse_plan q s, loseResponse_current q s⟩

/-! ### The checks and the owning block -/

@[simp] theorem commandOfCode_byte (c : Command) : commandOfCode c.byte = some c := by cases c <;> rfl

/-- A command that passes the common checks is carried out by its block. -/
theorem carryOutCode_own {c : Command} {p : Port} {payload : List Byte} (s : State) (hp : c.permits p = true)
    (hl : c.lengthFits payload = true) : carryOutCode p c.byte payload s = ownBlock c p payload s := by
  simp [carryOutCode, carryOut, hp, hl]

/-! ### The response -/

/-- The response is delivered to its port and changes nothing else. -/
theorem deliver_frame (p : Port) (r : Response) (s : State) : OnlyChanges [.link p] s (deliver p r s) := by
  intro k hk
  cases p <;> (cases k with
    | arbiter q => exact ⟨rfl, rfl, rfl⟩
    | link q => cases q <;> first | rfl | simp at hk
    | _ => rfl)

@[simp] theorem responseOn_deliver (p : Port) (r : Response) (s : State) : (deliver p r s).responseOn p = some r := by
  cases p <;> rfl

@[simp] theorem responseOn_refreshAttention (p : Port) (s : State) :
    (refreshAttention s).responseOn p = s.responseOn p := by cases p <;> rfl

/-- A request's row, given what its checks and its block make of the state prepared for it. -/
theorem exec_request {i : Instr} {p : Port} {code : Byte} {payload : List Byte} {s v : State} {reply : Reply}
    (hr : requestRow i = some (p, code, payload)) (hn : s.nrstAsserted = false)
    (hc : carryOutCode p code payload (beforeTake p code s) = (v, reply)) :
    exec i s = .next (refreshAttention (deliver p ⟨code, reply⟩ v)) := by
  rw [exec_requestRow s hr, takeRequest, hn, hc]
  rfl

/-- The frame of a request: its own block's changes beside those of the taking. -/
theorem request_frame {p : Port} {code : Byte} {s v : State} {r : Response} {changed : List Block}
    (h : OnlyChanges changed (beforeTake p code s) v) :
    OnlyChanges (changed ++ takeBlocks p s) s (refreshAttention (deliver p r v)) := by
  rw [OnlyChanges_refreshAttention]
  exact ((beforeTake_frame p code s).mono (fun k hk => by simp [hk])).trans
    ((h.mono (by simp +contextual)).trans
      ((deliver_frame p r v).mono (by simp [link_mem_takeBlocks])))

/-- The settings a command hands on, where no response is lost: those its block handed on. -/
theorem Hands.request {settings : List Setting} {p : Port} {code : Byte} {s v : State} {r : Response}
    (h : Hands settings (beforeTake p code s) v) (hl : s.loses p = false) :
    Hands settings s (refreshAttention (deliver p r v)) :=
  Hands.refresh (h.congr (beforeTake_na p code s hl).symm (by cases p <;> rfl))

/-- A refusal: the owning block leaves the state as the taking left it. -/
theorem refused_of {i : Instr} {p : Port} {c : Command} {payload : List Byte} {s : State} {st : Status}
    (hr : requestRow i = some (p, c.byte, payload)) (hn : s.nrstAsserted = false) (hp : c.permits p = true)
    (hl : c.lengthFits payload = true)
    (hc : ownBlock c p payload (beforeTake p c.byte s) = (beforeTake p c.byte s, refuse st)) :
    Runs i s (Refused p c st s) :=
  ⟨_, exec_request hr hn ((carryOutCode_own _ hp hl).trans hc), by simp [Answered, refuse, Command.byte],
    by simpa using request_frame (changed := []) (OnlyChanges.refl _ _)⟩

/-- A command carried out: what the statement says of the state its block left, of its response and of the frame. -/
theorem runs_of {i : Instr} {p : Port} {c : Command} {payload : List Byte} {s v : State} {reply : Reply}
    {after : State → Prop} (hr : requestRow i = some (p, c.byte, payload)) (hn : s.nrstAsserted = false)
    (hp : c.permits p = true) (hl : c.lengthFits payload = true)
    (hc : ownBlock c p payload (beforeTake p c.byte s) = (v, reply))
    (ha : after (refreshAttention (deliver p ⟨c.byte, reply⟩ v))) : Runs i s after :=
  ⟨_, exec_request hr hn ((carryOutCode_own _ hp hl).trans hc), ha⟩

end Sys2Proof.Machine
end

