-- ==== Sys2Proof/Laws/Commands.lean ====
section
/-! SUPPORT. What an owning block can do to the link units, its refusals, the state a request leaves seen block by
    block,
the sequence counter, and the clamp masks. -/

namespace Sys2Proof.Machine

set_option linter.all false

/-! ### The state a request leaves, block by block -/

@[simp] theorem after_nrstAsserted (p : Port) (r : Response) (v : State) :
    (refreshAttention (deliver p r v)).nrstAsserted = v.nrstAsserted := by cases p <;> rfl
@[simp] theorem after_straps (p : Port) (r : Response) (v : State) :
    (refreshAttention (deliver p r v)).straps = v.straps := by cases p <;> rfl
@[simp] theorem after_bt (p : Port) (r : Response) (v : State) :
    (refreshAttention (deliver p r v)).bt = v.bt := by cases p <;> rfl
@[simp] theorem after_mf (p : Port) (r : Response) (v : State) :
    (refreshAttention (deliver p r v)).mf = v.mf := by cases p <;> rfl
@[simp] theorem after_mi (p : Port) (r : Response) (v : State) :
    (refreshAttention (deliver p r v)).mi = v.mi := by cases p <;> rfl
@[simp] theorem after_rs (p : Port) (r : Response) (v : State) :
    (refreshAttention (deliver p r v)).rs = v.rs := by cases p <;> rfl
@[simp] theorem after_cu (p : Port) (r : Response) (v : State) :
    (refreshAttention (deliver p r v)).cu = v.cu := by cases p <;> rfl
@[simp] theorem after_hu (p : Port) (r : Response) (v : State) :
    (refreshAttention (deliver p r v)).hu = v.hu := by cases p <;> rfl
@[simp] theorem after_ds (p : Port) (r : Response) (v : State) :
    (refreshAttention (deliver p r v)).ds = v.ds := by cases p <;> rfl
@[simp] theorem after_rq (p : Port) (r : Response) (v : State) :
    (refreshAttention (deliver p r v)).rq = v.rq := by cases p <;> rfl
@[simp] theorem after_freeCount (p : Port) (r : Response) (v : State) :
    (refreshAttention (deliver p r v)).freeCount = v.freeCount := by cases p <;> rfl
@[simp] theorem after_pending (p : Port) (r : Response) (v : State) :
    (refreshAttention (deliver p r v)).pending = v.pending := by cases p <;> rfl

theorem BalesBecome.request {bales : List Bale} {p : Port} {code : Byte} {s v : State} {r : Response}
    (h : BalesBecome bales (beforeTake p code s) v) : BalesBecome bales s (refreshAttention (deliver p r v)) := by
  unfold BalesBecome at *; rw [beforeTake_bt] at h; simpa using h

theorem ChamberBecomes.request {c : Option Bale} {code' : Nat} {tm : Timer} {p : Port} {code : Byte} {s v : State}
    {r : Response} (h : ChamberBecomes c code' tm (beforeTake p code s) v) :
    ChamberBecomes c code' tm s (refreshAttention (deliver p r v)) := by
  unfold ChamberBecomes at *; rw [beforeTake_cu, beforeTake_mf] at h; cases p <;> exact h

theorem State.HoldsIn.beforeTake {z : Zone} {older : List Bale} {b : Bale} {younger : List Bale} {p : Port} {code :
    Byte}
    {s : State} (h : s.HoldsIn z older b younger) : (Machine.beforeTake p code s).HoldsIn z older b younger :=
  h.congr (by rw [beforeTake_bt])

theorem ZonesFall.beforeTake {p : Port} {code : Byte} {s : State} (h : ZonesFall s) :
    ZonesFall (Machine.beforeTake p code s) := by unfold ZonesFall at *; rw [beforeTake_bt]; exact h

theorem bales_of_recordOf {s : State} {q : Nat} {b : Bale} (h : s.recordOf q = some b) :
    ∃ older younger, s.bt.bales = older ++ b :: younger := List.append_of_mem (List.mem_of_find?_eq_some h)

/-! ### Refusals -/

theorem byte_of_code {code : Byte} {c : Command} (h : commandOfCode code = some c) : c.byte = code := by
  unfold commandOfCode at h
  have h2 := List.find?_some h
  simp at h2
  unfold Command.byte; rw [h2]; simp


/-- A refusal by the owning block leaves the state as it found it (00_scope.md, 4.3). -/
theorem ownBlock_refused (c : Command) (p : Port) (pl : List Byte) (s : State)
    (h : 0x10 ≤ (ownBlock c p pl s).2.status.code) :
    (ownBlock c p pl s).1 = s := by
  cases c <;> simp only [ownBlock] at h ⊢
  case identify => exact absurd h (by simp [cmdIdentify, answer, Status.code])
  case readStatus => exact absurd h (by simp [cmdReadStatus, answer, Status.code])
  case takeNotice => exact absurd h (by simp [cmdTakeNotice, answer, Status.code])
  case ackNotice =>
    revert h; unfold cmdAckNotice acknowledge; split <;> simp [answer, refuse, Status.code]
  case ackCurrent =>
    revert h; unfold cmdAckCurrent acknowledge; split <;> simp [answer, refuse, Status.code]
  case setNoticePlan => exact absurd h (by simp [cmdSetNoticePlan, answer, Status.code])
  case readLinkStats =>     revert h; unfold cmdReadLinkStats; split <;> simp [answer, refuse, Status.code]
  case portReset => exact absurd h (by simp [cmdPortReset, answer, Status.code])
  case readNext =>
    revert h; unfold cmdReadNext chunkReply; (try dsimp only); split
    · simp
    · split
      · dsimp only; split <;> simp [Status.code]
      · simp
  case readBale =>
    revert h; unfold cmdReadBale; (repeat' split) <;> first | (simp; done) | (unfold readBaleImage; split <;> (try
        unfold takeImage chunkReply) <;> (try split) <;> simp [Status.code])
  case readRecipe =>
    revert h; unfold cmdReadRecipe takeImage chunkReply; (try dsimp only); (repeat' split) <;> simp [Status.code]
  case fetchReport =>
    revert h; unfold cmdFetchReport takeImage chunkReply; (try dsimp only); (repeat' split) <;> simp [Status.code]
  case readChannel =>
    revert h; unfold cmdReadChannel; (try dsimp only); (repeat' split) <;> simp [Status.code]
  case holdZero =>
    revert h; unfold cmdHoldZero; (try dsimp only); (repeat' split) <;> simp [Status.code, zeroAnswer, answer]
  case releaseZero =>
    revert h; unfold cmdReleaseZero; (try dsimp only); (repeat' split) <;> simp [Status.code, zeroAnswer, answer]
  case prezero =>
    revert h; unfold cmdPrezero; (try dsimp only); (repeat' split) <;> simp [Status.code, zeroAnswer, answer]
  case openBale =>
    revert h; unfold cmdOpenBale; (try dsimp only); (repeat' split) <;> simp [Status.code, zeroAnswer, answer]
  case dumpPrechamber =>
    revert h; unfold cmdDumpPrechamber; (try dsimp only); (repeat' split) <;> simp [Status.code, zeroAnswer, answer]
  case netStart =>
    revert h; unfold cmdNetStart; (try dsimp only); (repeat' split) <;> simp [Status.code, zeroAnswer, answer]
  case netAbort =>
    revert h; unfold cmdNetAbort; (try dsimp only); (repeat' split) <;> simp [Status.code, zeroAnswer, answer]
  case requestEject =>
    revert h; unfold cmdRequestEject; (try dsimp only); (repeat' split) <;> simp [Status.code, zeroAnswer, answer]
  case cancelEject =>
    revert h; unfold cmdCancelEject; (try dsimp only); (repeat' split) <;> simp [Status.code, zeroAnswer, answer]
  case discardBale =>
    revert h; unfold cmdDiscardBale; (try dsimp only); (repeat' split) <;> simp [Status.code, zeroAnswer, answer]
  case tip =>
    revert h; unfold cmdTip; (try dsimp only); (repeat' split) <;> simp [Status.code, zeroAnswer, answer]
  case abandonWrap =>
    revert h; unfold cmdAbandonWrap; (try dsimp only); (repeat' split) <;> simp [Status.code, zeroAnswer, answer]
  case restoreDispenser =>
    revert h; unfold cmdRestoreDispenser; (try dsimp only); (repeat' split) <;> simp [Status.code, zeroAnswer, answer]
  case withdrawDispenser =>
    revert h; unfold cmdWithdrawDispenser; (try dsimp only); (repeat' split) <;> simp [Status.code, zeroAnswer,
        answer]
  case holdTable =>
    revert h; unfold cmdHoldTable tableAnswer; simp [Status.code, zeroAnswer, answer]
  case freeTable =>
    revert h; unfold cmdFreeTable tableAnswer; simp [Status.code, zeroAnswer, answer]
  case loadRecipe =>
    revert h; unfold cmdLoadRecipe; (try dsimp only); (repeat' split) <;> simp [Status.code, zeroAnswer, answer]
  case setMachine =>
    revert h; unfold cmdSetMachine; (try dsimp only); (repeat' split) <;> (try unfold setChannelGroup) <;> (try
        unfold setConstantsGroup)  <;> dsimp only <;> (repeat' split)<;> simp [Status.code, zeroAnswer, answer]
  case readMachine =>
    revert h; unfold cmdReadMachine; (try dsimp only); (repeat' split) <;> simp [Status.code, zeroAnswer, answer]
  case newRoll =>
    revert h; unfold cmdNewRoll; (try dsimp only); (repeat' split) <;> simp [Status.code, zeroAnswer, answer]
  case readStock => simp [cmdReadStock]
  case releaseReport =>
    revert h; unfold cmdReleaseReport; (try dsimp only); (repeat' split) <;> simp [Status.code, zeroAnswer, answer]
  case queueStatus =>
    revert h; unfold cmdQueueStatus; (try dsimp only); (repeat' split) <;> simp [Status.code, zeroAnswer, answer]


/-- A response with a status of 0x10 or above comes with the state as the taking left it. -/
theorem carryOutCode_refused (code : Byte) (p : Port) (pl : List Byte) (s : State) 
    (h : 0x10 ≤ (carryOutCode p code pl s).2.status.code) :
    (carryOutCode p code pl s).1 = s := by
  revert h; unfold carryOutCode carryOut
  split
  · split
    · simp
    · split
      · simp
      · exact ownBlock_refused _ _ _ _
  · simp


/-! ### Link units -/

/-- Outside READ LINK STATS and PORT RESET a block changes nothing of a link unit but its transfer image. -/
theorem ownBlock_links (c : Command) (p : Port) (pl : List Byte) (s : State) (hc : c ≠ .readLinkStats)
    (hc2 : c ≠ .portReset) :
    (ownBlock c p pl s).1.la = { s.la with image := (ownBlock c p pl s).1.la.image } ∧
      (ownBlock c p pl s).1.lb = { s.lb with image := (ownBlock c p pl s).1.lb.image } ∧
      (ownBlock c p pl s).1.lc = { s.lc with image := (ownBlock c p pl s).1.lc.image } := by
  refine ⟨?_, ?_, ?_⟩
  all_goals
    cases c <;> simp only [ownBlock, cmdIdentify, cmdReadStatus, cmdReadNext, cmdTakeNotice, cmdAckNotice,
        cmdSetNoticePlan, cmdAckCurrent, cmdReadLinkStats, cmdPortReset, cmdReadBale, cmdReadChannel, cmdHoldZero,
        cmdReleaseZero, cmdPrezero, cmdOpenBale, cmdDumpPrechamber, cmdNetStart, cmdNetAbort, cmdRequestEject,
        cmdCancelEject, cmdDiscardBale, cmdTip, cmdAbandonWrap, cmdRestoreDispenser, cmdWithdrawDispenser,
        cmdHoldTable, cmdFreeTable, cmdLoadRecipe, cmdReadRecipe, cmdSetMachine, cmdReadMachine, cmdNewRoll,
        cmdReadStock, cmdFetchReport, cmdReleaseReport, cmdQueueStatus, acknowledge, readBaleImage, takeImage,
        setChannelGroup, setConstantsGroup, applyConstants, flagForcedTip]
  all_goals (repeat' split)
  all_goals (try dsimp only)
  all_goals try (simp; done)
  all_goals try rfl
  all_goals try (simp; rfl)
  all_goals try (cases p <;> rfl)
  all_goals try (exact absurd rfl hc)
  all_goals try (exact absurd rfl hc2)

/-- A link unit as the taking of a request leaves it for the owning block. -/
theorem beforeTake_link (p : Port) (code : Byte) (s : State) :
    (∀ l, p = linePort l → (beforeTake p code s).line l = { s.line l with
      frames := stepSaturating (s.line l).frames 255, image := ((beforeTake p code s).line l).image }) ∧
    (p = .c → (beforeTake p code s).lc = { s.lc with
      buffer := none, readPos := (beforeTake p code s).lc.readPos
      frames := stepSaturating s.lc.frames 255, image := (beforeTake p code s).lc.image
      responseLost := if s.lc.buffer.isSome then stepSaturating s.lc.responseLost 255 else s.lc.responseLost
      errorLatch := s.lc.errorLatch || s.lc.buffer.isSome }) := by
  constructor
  · rintro l rfl; cases l <;> (unfold beforeTake; dsimp only [linePort]; split <;> rfl)
  · rintro rfl; unfold beforeTake; dsimp only;
    cases hb : s.lc.buffer <;> simp only [loseResponse, hb] <;> split <;> simp [hb, stepFrames, countTargetError]
        <;> (repeat' apply And.intro) <;> rfl

/-- The link unit after such a command. -/
theorem LinkKept.of_ownBlock (c : Command) (p : Port) (pl : List Byte) (s : State) (hc : c ≠ .readLinkStats)
    (hc2 : c ≠ .portReset) (code : Byte) (r : Response) :
    LinkKept p s (refreshAttention (deliver p r (ownBlock c p pl (beforeTake p code s)).1)) := by
  have h := ownBlock_links c p pl (beforeTake p code s) hc hc2
  have g := beforeTake_link p code s
  generalize (ownBlock c p pl (beforeTake p code s)).1 = u at *
  generalize beforeTake p code s = v at *
  obtain ⟨h1, h2, h3⟩ := h
  obtain ⟨g1, g2⟩ := g
  refine ⟨?_, ?_⟩
  · rintro l rfl
    have g := g1 l rfl
    cases l
    · have g' : v.la = _ := g
      rw [g'] at h1
      show ({ u.la with tx := some r } : LineLink) = _
      rw [h1]; rfl
    · have g' : v.lb = _ := g
      rw [g'] at h2
      show ({ u.lb with tx := some r } : LineLink) = _
      rw [h2]; rfl
  · rintro rfl
    show ({ u.lc with buffer := some r, readPos := 0 } : TargetLink) = _
    have g := g2 rfl
    rw [g] at h3
    rw [h3]; rfl

/-! ### The sequence counter -/

/-- The counter stays in 1 to 65535 (R11). -/
theorem stepSeq_range : ∀ (k : Nat) (live : List Nat) (c : Nat), 1 ≤ c → c ≤ 65535 →
    (1 ≤ stepSeq k live c ∧ stepSeq k live c ≤ 65535)
  | 0, live, c, h1, h2 => ⟨h1, h2⟩
  | k+1, live, c, h1, h2 => by
    have a1 : 1 ≤ seqAfter c ∧ seqAfter c ≤ 65535 := by unfold seqAfter; split <;> omega
    unfold stepSeq; split
    · exact stepSeq_range k live _ a1.1 a1.2
    · exact a1

/-- With at most three live records the counter lands on a value none of them carries (R11). -/
theorem stepSeq_free (live : List Nat) (hl : live.length ≤ 3) (c : Nat) (h1 : 1 ≤ c) (h2 : c ≤ 65535)
    (hc : c ∈ live) : stepSeq (live.length + 1) live c ∉ live := by
  have hs : ∀ c, 1 ≤ c → c ≤ 65535 → seqAfter c ≠ c ∧ seqAfter (seqAfter c) ≠ c ∧ seqAfter (seqAfter (seqAfter c)) ≠
      c ∧ seqAfter (seqAfter c) ≠ seqAfter c ∧ seqAfter (seqAfter (seqAfter c)) ≠ seqAfter c := by
    intro c a b; unfold seqAfter; repeat' split
    all_goals omega
  obtain ⟨e1, e2, e3, e4, e5⟩ := hs c h1 h2
  match live, hl with
  | [], _ => simp at hc
  | [x], _ => simp at hc; subst hc; simp [stepSeq, e1]
  | [x, y], _ =>
    simp [stepSeq]; split
    · split
      · grind
      · grind
    · grind
  | [x, y, z], _ =>
    simp [stepSeq]; split
    · split
      · split
        · have hs2 : ∀ c, 1 ≤ c → c ≤ 65535 → seqAfter (seqAfter (seqAfter (seqAfter c))) ≠ c ∧ seqAfter (seqAfter
            (seqAfter (seqAfter c))) ≠ seqAfter c ∧ seqAfter (seqAfter (seqAfter (seqAfter c))) ≠ seqAfter (seqAfter
            c) ∧ seqAfter (seqAfter (seqAfter c)) ≠ seqAfter (seqAfter c) ∧ seqAfter (seqAfter (seqAfter (seqAfter
            c))) ≠ seqAfter (seqAfter (seqAfter c)) := by
            intro c a b; unfold seqAfter; repeat' split
            all_goals omega
          have := hs2 c h1 h2
          grind
        · grind
      · grind
    · grind


/-! ### Clamp masks -/

/-- The clamp mask of LOAD RECIPE, mark by mark (R56). -/
theorem recipeClampMask_iff (st w : Recipe) (al k : Nat) (h1 : 1 ≤ k) (h2 : k ≤ 15) :
    (recipeClampMask (alterRecipe st w al) w al).testBit k = true ↔
      (al.testBit k = true ∧ recipeField (alterRecipe st w al) k ≠ recipeField w k) ∨
        (k = 8 ∧ (alterRecipe st w al).m2 < (alterRecipe st w al).m1) := by
  rw [recipeClampMask, marks_testBit, ← hasMark_eq]
  generalize hm : hasMark al = m
  match k, h1, h2 with
  | 1, _, _ | 2, _, _ | 3, _, _ | 4, _, _ | 5, _, _ | 6, _, _ | 7, _, _ | 8, _, _ | 9, _, _ | 10, _, _ | 11, _, _
  | 12, _, _ | 13, _, _ | 14, _, _ | 15, _, _ =>
    simp only [List.getD_cons_succ, List.getD_cons_zero, alterRecipe, hm, recipeField, clampMark, alterNat]
    generalize m _ = x
    cases x <;> simp

/-- The clamp mask of SET MACHINE group 3, mark by mark (R60). -/
theorem constantsClampMask_iff (st w : Constants) (hd : -32768 ≤ w.dvOffset ∧ w.dvOffset ≤ 32767) (al k : Nat)
    (h2 : k ≤ 12) :
    (constantsClampMask (alterConstants st w al) w al).testBit k = true ↔
      (al.testBit k = true ∧ constantField (hystStep (alterConstants st w al)) k ≠ constantField w k) ∨
        (k = 8 ∧ (alterConstants st w al).opLimit ≤ (alterConstants st w al).opHyst) := by
  have cast : ∀ a b : Nat, ((a : Int) = b) ↔ a = b := fun a b => by omega
  have clampId : clampInt w.dvOffset (-32768) 32767 = w.dvOffset := by
    rw [clampInt_eq _ _ _ (by omega)]; omega
  rw [constantsClampMask, marks_testBit, ← hasMark_eq]
  generalize hm : hasMark al = m
  match k, h2 with
  | 0, _ | 1, _ | 2, _ | 3, _ | 4, _ | 5, _ | 6, _ | 7, _ | 10, _ | 11, _ | 12, _ =>
    unfold hystStep
    split <;>
      (simp only [List.getD_cons_succ, List.getD_cons_zero, alterConstants, hm, constantField, clampMark, alterNat]
       generalize m _ = x
       cases x <;> simp [cast])
  | 9, _ =>
    unfold hystStep
    split <;> cases hx : m 9 <;> simp [clampId, constantField, alterConstants, hm, hx]
  | 8, _ =>
    simp only [List.getD_cons_succ, List.getD_cons_zero, Bool.or_eq_true, decide_eq_true_eq]
    rw [clampMark_iff _ _ st.opHyst]
    unfold hystStep
    split
    · simp [*]
    · simp [*, constantField, alterConstants, cast]

end Sys2Proof.Machine
end

