-- ==== Sys2Proof/Laws/Wire.lean ====
section
/-! SUPPORT. What goes over the wires: the bytes and characters of a response (Table 10-1, R187), and port C's transactions
as one decision each (R189, R191). -/

namespace Sys2Proof.Machine

/-! ### The bytes of a response -/

theorem byteSum_append (xs ys : List Byte) : byteSum (xs ++ ys) = byteSum xs + byteSum ys := by
  induction xs with
  | nil => simp [byteSum]
  | cons x xs ih => simp [byteSum, ih, BitVec.add_assoc]

/-- The check makes the sum 0 mod 256 (R185, log entry 9). -/
theorem byteSum_check (bs : List Byte) : byteSum (bs ++ [checkByte bs]) = 0 := by
  rw [byteSum_append]
  simp [byteSum, checkByte, BitVec.sub_eq_add_neg]

@[simp] theorem Response.length_bytes (r : Response) : r.bytes.length = r.reply.payload.length + 4 := by
  simp [Response.bytes, Response.body, byte1]

/-- A response's bytes stand as Table 10-1 orders them. -/
theorem Response.frameOf_bytes (r : Response) : FrameOf r r.bytes :=
  ⟨checkByte r.body, byteSum_check r.body, rfl⟩

@[simp] theorem Response.length_characters (r : Response) (station : Nat) :
    (r.characters station).length = r.reply.payload.length + 5 := by
  simp [Response.characters]

/-! ### What ports A and B send -/

theorem State.sends_none {s : State} {l : LinePort} (h : (s.line l).tx = none) : s.sends l = [] := by
  rw [State.sends, h]

theorem State.sends_some {s : State} {l : LinePort} {r : Response} (h : (s.line l).tx = some r) :
    s.sends l = r.characters (addressOf s.straps (linePort l)) := by
  rw [State.sends, h]

@[simp] theorem State.sends_refreshAttention (s : State) (l : LinePort) : (refreshAttention s).sends l = s.sends l := by
  cases l <;> rfl

/-! ### Port C's transactions -/

@[simp] theorem State.onWires_acks (s : State) (acks : List Bool) (sda : List Byte) :
    (s.onWires acks sda).lc.acks = acks := rfl
@[simp] theorem State.onWires_sda (s : State) (acks : List Bool) (sda : List Byte) :
    (s.onWires acks sda).lc.sda = sda := rfl
@[simp] theorem State.onWires_buffer (s : State) (acks : List Bool) (sda : List Byte) :
    (s.onWires acks sda).lc.buffer = s.lc.buffer := rfl
@[simp] theorem State.onWires_na (s : State) (acks : List Bool) (sda : List Byte) :
    (s.onWires acks sda).na = s.na := rfl
@[simp] theorem State.onWires_nrstAsserted (s : State) (acks : List Bool) (sda : List Byte) :
    (s.onWires acks sda).nrstAsserted = s.nrstAsserted := rfl
@[simp] theorem State.onWires_readable (s : State) (acks : List Bool) (sda : List Byte) :
    (s.onWires acks sda).readable = s.readable := rfl

theorem State.acknowledges_iff (s : State) (address : BitVec 7) :
    s.acknowledges address = true ↔ s.nrstAsserted = false ∧ address.toNat = 0x2C + s.straps.c.toNat := by
  rw [State.acknowledges, Bool.and_eq_true, Bool.not_eq_true', beq_iff_eq]; rfl

/-- While nRST is asserted LC acknowledges no address (R202). -/
theorem State.acknowledges_underReset {s : State} (h : s.nrstAsserted = true) (address : BitVec 7) :
    s.acknowledges address = false := by
  rw [State.acknowledges, h]; rfl

/-- Putting something on port C's wires changes its link unit alone. -/
theorem State.onWires_frame (s : State) (acks : List Bool) (sda : List Byte) :
    OnlyChanges [.link .c] s (s.onWires acks sda) := by
  intro k hk
  cases k with
  | arbiter q => exact ⟨rfl, rfl, rfl⟩
  | link q => cases q <;> first | rfl | simp at hk
  | _ => rfl

/-- Everything a write can do (R189, R202): nothing but on the wires where LC does not acknowledge, else LC's decision. -/
theorem writeTransaction_cases (write : WriteTransfer) (s : State) :
    (s.acknowledges write.address = false ∧ writeTransaction write s = s.onWires [] []) ∨
      (s.acknowledges write.address = true ∧
        writeTransaction write s = decideWrite write.bytes (s.onWires (writeAcks write.bytes.length) [])) := by
  cases h : s.acknowledges write.address <;> simp [writeTransaction, h]

/-- Everything LC can decide on the bytes of a write (R189). -/
theorem decideWrite_cases (bytes : List Byte) (s : State) :
    (bytes = [] ∧ decideWrite bytes s = s) ∨
      (bytes ≠ [] ∧ (51 < bytes.length ∨ bytes.length ≠ 3 + nat1 bytes 1) ∧
        decideWrite bytes s = countTargetError .length s) ∨
      (bytes.length ≤ 51 ∧ bytes.length = 3 + nat1 bytes 1 ∧ byteSum bytes ≠ 0 ∧
        decideWrite bytes s = countTargetError .check s) ∨
      (bytes.length ≤ 51 ∧ bytes.length = 3 + nat1 bytes 1 ∧ byteSum bytes = 0 ∧
        decideWrite bytes s = takeRequest .c (requestOf bytes).code (requestOf bytes).payload s) := by
  unfold decideWrite
  split
  · exact .inl ⟨List.length_eq_zero_iff.mp ‹_›, rfl⟩
  · have hne : bytes ≠ [] := by simpa using ‹¬ bytes.length = 0›
    split
    · exact .inr (.inl ⟨hne, ‹_›, rfl⟩)
    · have hl : bytes.length ≤ 51 ∧ bytes.length = 3 + nat1 bytes 1 := by omega
      split
      · exact .inr (.inr (.inl ⟨hl.1, hl.2, ‹_›, rfl⟩))
      · exact .inr (.inr (.inr ⟨hl.1, hl.2, by simpa using ‹¬ byteSum bytes ≠ 0›, rfl⟩))

/-- Everything a read can do (R189, R191, R202). -/
theorem readTransaction_cases (read : ReadTransfer) (s : State) :
    (s.acknowledges read.address = false ∧ readTransaction read s = s.onWires [] []) ∨
      (s.acknowledges read.address = true ∧
        readTransaction read s = afterRead read.count (s.onWires [true] (readBytes s.readable read.count))) := by
  cases h : s.acknowledges read.address <;> simp [readTransaction, h]

/-- What a read leaves of port C's response (R191). -/
theorem afterRead_lc (count : Nat) (s : State) :
    (afterRead count s).lc = { s.lc with
      buffer := if s.readable.length ≤ count then none else s.lc.buffer
      readPos := if s.readable.length ≤ count then 0 else if s.lc.buffer.isSome then count else 0 } := rfl

@[simp] theorem length_readBytes (frame : List Byte) (count : Nat) : (readBytes frame count).length = count := by
  simp [readBytes]; omega

/-- Byte `k` that a read returns: the frame's, and 0xFF beyond it (R191). -/
theorem getElem?_readBytes {frame : List Byte} {count k : Nat} (h : k < count) :
    (readBytes frame count)[k]? = some (frame.getD k 0xFF) := by
  unfold readBytes
  by_cases hk : k < frame.length
  · rw [List.getElem?_append_left (by simp; omega)]
    simp [h, hk]
  · rw [List.getElem?_append_right (by simp; omega), List.length_take, Nat.min_eq_right (by omega),
      List.getElem?_replicate, if_pos (by omega), List.getD_eq_getElem?_getD,
      List.getElem?_eq_none (Nat.le_of_not_lt hk)]
    rfl

end Sys2Proof.Machine
end

