-- ==== Sys2Proof/WellFormed.lean ====
section
/-! DEFINITION. Which commands the outside world can send: the ranges the spec puts on their operands. -/

namespace Sys2Proof

/-- The command codes of Table 10-3. -/
def listedCodes : List Nat :=
  [0x01, 0x02, 0x03, 0x08, 0x09, 0x0A, 0x0B, 0x0C, 0x0F, 0x10, 0x18, 0x19, 0x1A, 0x1B] ++
  [0x20, 0x21, 0x22, 0x23, 0x24, 0x25, 0x26, 0x30, 0x31, 0x32, 0x33, 0x34, 0x35] ++
  [0x40, 0x41, 0x42, 0x43, 0x44, 0x45, 0x48, 0x49, 0x4A]

/-- A payload has at most 48 bytes (Table 10-1). -/
def payloadFits (payload : List Byte) : Bool := decide (payload.length ≤ 48)

/-- The check on a command's operands: a raw code lies in -32767 to +32767 (R30), a payload has at most 48 bytes
(Table 10-1), and the code of an UNKNOWN_COMMAND is not one of Table 10-3 (R192). -/
def WellFormed : Instr → Bool
  | .powerOnReset _ => true
  | .pinResetAssertion => true
  | .pinResetRelease _ => true
  | .runClockTick => true
  | .pdmOutputSlot => true
  | .levelPinChange _ _ => true
  | .stabilityTimerExpiry _ => true
  | .tablePulse => true
  | .tableIndex => true
  | .baleRoll => true
  | .netRoll => true
  | .filmPulse _ => true
  | .conversionCompletion _ raw => decide (-32767 ≤ raw ∧ raw ≤ 32767)
  | .zeroDueExpiry _ => true
  | .autoZeroCompletion _ => true
  | .netCatchExpiry => true
  | .transferTimerExpiry => true
  | .addressCharacter _ _ _ => true
  | .dataCharacter _ _ _ => true
  | .interCharacterTimeout _ => true
  | .responseTransmissionCompletion _ => true
  | .writeTransaction _ => true
  | .readTransaction _ => true
  | .unknownCommand _ code payload => !listedCodes.contains code.toNat && payloadFits payload
  | .identify _ payload => payloadFits payload
  | .readStatus _ payload => payloadFits payload
  | .readNext _ payload => payloadFits payload
  | .takeNotice _ payload => payloadFits payload
  | .ackNotice _ payload => payloadFits payload
  | .setNoticePlan _ payload => payloadFits payload
  | .ackCurrent _ payload => payloadFits payload
  | .readLinkStats _ payload => payloadFits payload
  | .portReset _ payload => payloadFits payload
  | .readBale _ payload => payloadFits payload
  | .readChannel _ payload => payloadFits payload
  | .holdZero _ payload => payloadFits payload
  | .releaseZero _ payload => payloadFits payload
  | .prezero _ payload => payloadFits payload
  | .openBale _ payload => payloadFits payload
  | .dumpPrechamber _ payload => payloadFits payload
  | .netStart _ payload => payloadFits payload
  | .netAbort _ payload => payloadFits payload
  | .requestEject _ payload => payloadFits payload
  | .cancelEject _ payload => payloadFits payload
  | .discardBale _ payload => payloadFits payload
  | .tip _ payload => payloadFits payload
  | .abandonWrap _ payload => payloadFits payload
  | .restoreDispenser _ payload => payloadFits payload
  | .withdrawDispenser _ payload => payloadFits payload
  | .holdTable _ payload => payloadFits payload
  | .freeTable _ payload => payloadFits payload
  | .loadRecipe _ payload => payloadFits payload
  | .readRecipe _ payload => payloadFits payload
  | .setMachine _ payload => payloadFits payload
  | .readMachine _ payload => payloadFits payload
  | .newRoll _ payload => payloadFits payload
  | .readStock _ payload => payloadFits payload
  | .fetchReport _ payload => payloadFits payload
  | .releaseReport _ payload => payloadFits payload
  | .queueStatus _ payload => payloadFits payload

end Sys2Proof
end

