-- ==== Sys2Proof/Tests/Slice0.lean ====
section
/-! SUPPORT. Small tests, each one step on a small state with the expected values of the spec's worked examples, and for
each obligation with hypotheses a witness that meets them. -/

namespace Sys2Proof.Tests

open Sys2Proof Sys2Proof.Machine

/-! ### Helpers -/

/-- The state a command leaves. -/
def after (i : Instr) (s : State) : State :=
  match exec i s with
  | .next t => t
  | _ => s

/-- The reply a port carries. -/
def reply (p : Port) (s : State) : Option Reply := (s.responseOn p).map Response.reply

/-- The inputs of section 11.1.1: STOP deasserted, TAILGATE closed, TABLE_LOADED deasserted, angle 40. -/
def readyInputs : MachineInputs := ⟨⟨false, false, .stopped⟩, ⟨true, true, .stopped⟩, ⟨false, false, .stopped⟩, 40⟩

/-- A state with the inputs of section 11.1.1 and the held D value given. -/
def ready (d : Nat) : State :=
  { State.reset with
    mi := readyInputs
    mf := { State.reset.mf with d := { State.reset.mf.d with value := d, stale := false } } }

/-- The same with live records, the time and the counter at 500. -/
def live (d time : Nat) (bales : List Bale) : State :=
  { ready d with bt := { bales := bales, seqCounter := 500, runClock := time } }

/-- A record in a stage, its other fields as at creation. -/
def bale (q : Nat) (st : Stage) : Bale := newRecord q 0 defaultRecipe st 0

/-- A record with the net fields of bale 120 (section 11.1.2). -/
def nettedBale (q : Nat) (st : Stage) (metered : Nat) : Bale :=
  { bale q st with net := some ⟨1250, 39270, 101175, metered⟩, moistureSum := 445120, moistureCount := 856 }

/-- A wrap section at its start, with a target of 6 (section 11.1.3). -/
def freshWrap : WrapSection := newWrap 6 39270

/-- A WRAPPING record with a wrap section. -/
def wrappingBale (q : Nat) (w : WrapSection) : Bale :=
  { nettedBale q .wrapping 101500 with moistureMean := some 520, wrap := some w }

/-- A RUNNING dispenser with a known stock. -/
def running (stock residue silence : Nat) : DispenserRecord := ⟨.running, silence, residue, stock, true⟩

/-- A state with a WRAPPING record on the table, the dispensers and an angle as given. -/
def wrappingState (time angle : Nat) (w : WrapSection) (q : Nat) (one two : DispenserRecord) : State :=
  { live 610 time [wrappingBale q w] with
    mi := { readyInputs with tableLoaded := ⟨true, true, .stopped⟩, angle := angle }
    hu := { idleHandover with reservation := some q }
    ds := { film := ⟨one, two⟩, netStock := 10000000, netKnown := true } }

/-- A state in which a level input's stability timer runs with its pin at the other level. -/
def settling (i : LevelInput) (s : State) : State :=
  s.modifyLevel i (fun x => { x with pin := !x.filtered, timer := .running 20 })

/-- A report of a bale (section 11.2). -/
def report (q : Nat) : Report := { bale q .tipping with closed := some 1, closeReason := some .done }

/-- Sixteen queued reports, 124 to 139 (section 11.2.1). -/
def fullQueue : ReportQueue := { queue := (List.range 16).map (fun k => report (124 + k)), holding := none, lost := 0, overrun := false }

/-! ### WellFormed -/

theorem test_wellformed_raw_code_refused : WellFormed (.conversionCompletion .p (-32768)) = false := by decide
theorem test_wellformed_raw_code_fits : WellFormed (.conversionCompletion .p (-32767)) = true := by decide
theorem test_wellformed_listed_code_refused : WellFormed (.unknownCommand .a 0x20 []) = false := by decide
theorem test_wellformed_unlisted_code_fits : WellFormed (.unknownCommand .a 0x04 []) = true := by decide
theorem test_wellformed_long_payload_refused : WellFormed (.identify .a (List.replicate 49 0)) = false := by decide
theorem test_wellformed_payload_fits : WellFormed (.identify .a (List.replicate 48 0)) = true := by decide

/-! ### Resets, clock, output stage -/

/-- R182: STOP's filtered level is asserted at power-on, so the three lines are. -/
theorem test_reset_attention :
    State.reset.raised .a = true ∧ State.reset.raised .b = true ∧ State.reset.raised .c = true := by decide

/-- R27, R53: power-on sets the counter to 1 and slot 0 alone valid. -/
theorem test_power_on_reset :
    (after (.powerOnReset noStraps) (live 610 77 [bale 3 .forming])).bt = ⟨[], 1, 0⟩ := by decide

/-- R26: a live record closes with RESET at the assertion. -/
theorem test_pin_reset_assertion :
    (after .pinResetAssertion (live 610 77 [bale 3 .forming])).rq.queue.map (fun r => (r.seq, r.closeReason, r.closed)) =
      [(3, some .reset, some 77)] := by decide

/-- R42: the release starts both timers of a channel. -/
theorem test_pin_reset_release :
    ((after (.pinResetRelease noStraps) { ready 610 with nrstAsserted := true }).mf.m.convTimer) = .running 100 := by
  decide

/-- R12: the largest value is followed by 0. -/
theorem test_run_clock_wraps : (after .runClockTick (live 0 4294967295 [])).bt.runClock = 0 := by decide

/-- R74: at code 49152 from 0 the pattern is low, high, high, high. -/
theorem test_pdm_pattern :
    let s0 := { ready 0 with cu := { idleChamber with dvCode := 49152 } }
    let s1 := after .pdmOutputSlot s0
    let s2 := after .pdmOutputSlot s1
    let s3 := after .pdmOutputSlot s2
    (s1.cu.dvout, s2.cu.dvout, s3.cu.dvout, (after .pdmOutputSlot s3).cu.dvout) = (false, true, true, true) := by decide

/-! ### Inputs -/

/-- R43: a difference starts the 20 ms timer. -/
theorem test_level_pin_change :
    (after (.levelPinChange .stop true) (ready 610)).mi.stop = ⟨true, false, .running 20⟩ := by decide

/-- R10, R85: STOP rising marks the record and takes the DV code to 0. -/
theorem test_stop_rising :
    let t := after (.stabilityTimerExpiry .stop)
      (settling .stop { live 610 5050 [bale 71 .netted] with cu := { idleChamber with computedCode := 39500, dvCode := 39500 } })
    t.cu.dvCode = 0 ∧ t.bt.bales.map (fun b => b.flags.stopSeen) = [true] := by decide

/-- Section 11.1.3: the arrival gives a layer target of 6 and a `circ` of 39270. -/
theorem test_arrival :
    let s := { live 610 31015 [{ nettedBale 120 .ejecting 101500 with moistureMean := some 520 }] with
      hu := { idleHandover with reservation := some 120, transferTimer := .running 10000 } }
    let t := after (.stabilityTimerExpiry .tableLoaded) (settling .tableLoaded s)
    t.bt.bales.map (fun b => (b.stage, b.arrived, b.wrap)) = [(.wrapping, some 31015, some freshWrap)] ∧
      t.latch .b .transfer 0 = some 120 ∧ t.latch .c .stage 2 = some 120 ∧ t.hu.transferTimer = .stopped := by decide

/-- Section 11.2.5: the closure's report takes the holding slot, and the waiting eject is granted within the fall. -/
theorem test_fall_grants :
    let s := { live 610 52690 [{ wrappingBale 140 freshWrap with stage := .tipping },
        { nettedBale 141 .netted 101500 with ejectRequested := true }, bale 142 .gathering] with
      mi := { readyInputs with tableLoaded := ⟨true, true, .stopped⟩ }
      hu := { idleHandover with reservation := some 140, ejectSlot := some 141 }, rq := fullQueue }
    let t := after (.stabilityTimerExpiry .tableLoaded) (settling .tableLoaded s)
    t.bt.bales.map (fun b => (b.seq, b.stage)) = [(141, .ejecting), (142, .gathering)] ∧
      t.rq.holding.map Bale.seq = some 140 ∧ t.rq.lost = 0 ∧ t.hu = ⟨some 141, none, false, .running 10000⟩ ∧
      t.latch .a .ejectGrant 0 = some 141 ∧ t.latch .b .stage 2 = some 141 := by decide

/-! ### Pulses -/

/-- R48: from Tp - 1 to 0. -/
theorem test_table_pulse_wraps :
    (after .tablePulse { ready 610 with mi := { readyInputs with angle := 255 } }).mi.angle = 0 := by decide

/-- Section 11.2.2: the 64th silent pulse breaks dispenser 2, with its entry and FILM (2, 140) on port B. -/
theorem test_break :
    let s := wrappingState 52020 133 { freshWrap with revolutions := 17, surfacePos := 21300 } 140
      (running 6300 85 0) (running 700000 90 63)
    let t := after .tablePulse s
    t.mi.angle = 134 ∧ t.ds.film.two.state = .broken ∧ t.ds.film.two.silence = 64 ∧ t.latch .b .film 2 = some 140 ∧
      t.wrapping.map (fun x => (x.2.breaks, x.2.breakCount)) = some ([⟨.two, 17, 21300, 52020⟩], 1) := by decide

/-- Section 11.1.4: the first lay, dispenser 2's on the pulse onto 128, covers sectors 3 to 12 and charges 2882 mm. -/
theorem test_first_lay :
    let s := wrappingState 31020 127 { freshWrap with surfacePos := 1800 } 120 (running 900000 0 0) (running 900000 0 0)
    let t := after .tablePulse s
    t.wrapping.map (fun x => (x.2.layers, x.2.lays2, x.2.film2)) =
      some (List.replicate 3 0 ++ List.replicate 10 1 ++ List.replicate 51 0, 1, 2882) ∧
    t.ds.film.two.stock = 897118 ∧ t.ds.film.two.residue = 60 := by decide +kernel

/-- Section 11.1.5: the dispenser-1 lay at 25500 completes the wrap, and the revolution step follows. -/
theorem test_completion :
    let w := { freshWrap with
      surfacePos := 25500, revolutions := 21, lays1 := 21, lays2 := 22
      layers := List.replicate 42 6 ++ List.replicate 8 5 ++ List.replicate 14 6 }
    let t := after .tableIndex (wrappingState 31895 255 w 120 (running 839472 160 0) (running 836589 130 0))
    t.bt.bales.map (fun b => (b.stage, b.wrapped, b.flags.underwrapped, b.wrap.map (fun x => (x.lays1, x.revolutions)))) =
      [(.wrapped, some 31895, false, some (22, 22))] ∧
    t.latch .b .wrapDone 0 = some 120 := by decide +kernel

/-- Section 11.2.3: the roll runs out in the band; the bale is charged what was left. -/
theorem test_short_roll :
    let b := { wrappingBale 140 { freshWrap with layerTarget := 8, circ := 43982, film1 := 56728 } with
      net := some ⟨1400, 43982, 0, 0⟩, recipe := { defaultRecipe with s := 65 } }
    let s := { wrappingState 52080 255 freshWrap 140 (running 3148 5 0) (running 700000 10 0) with
      bt := { bales := [b], seqCounter := 500, runClock := 52080 } }
    let t := after .tableIndex s
    t.ds.film.one = ⟨.empty, 0, 90, 0, true⟩ ∧ t.latch .b .film 1 = some 140 ∧
      t.bt.bales.map (fun x => (x.stage, x.flags.filmShort, x.wrap.map WrapSection.film1)) =
        [(.wrapping, true, some 59876)] := by decide +kernel

/-- R111: the surface position wraps through 0. -/
theorem test_bale_roll :
    (after .baleRoll (wrappingState 0 40 { freshWrap with surfacePos := 39200 } 120 (running 1 0 0) (running 1 0 0))).wrapping.map
      (fun x => x.2.surfacePos) = some 30 := by decide

/-- Section 11.1.2: NET_ROLL arrival 203. -/
theorem test_net_roll_completes :
    let s := { live 1250 30960 [nettedBale 120 .netting 101000] with
      ds := { powerOnStock with netStock := 9899000, netKnown := true } }
    let t := after .netRoll s
    t.bt.bales.map (fun b => (b.stage, b.netted, b.netTurns, b.moistureMean)) =
      [(.netted, some 30960, some 25, some 520)] ∧
    t.latch .a .netDone 0 = some 120 ∧ t.latch .b .netDone 0 = none ∧ t.ds.netStock = 9898500 := by decide

/-- R136: a BROKEN dispenser stays BROKEN. -/
theorem test_film_pulse :
    (after (.filmPulse .two) { ready 610 with ds := { powerOnStock with film := ⟨powerOnDispenser, ⟨.broken, 64, 0, 0, false⟩⟩ } }).ds.film.two =
      ⟨.broken, 0, 0, 0, false⟩ := by decide

/-! ### Channels and timers -/

/-- Table 2-3, all seven rows. -/
theorem test_scaling :
    [16000, 1000, 32767].map (scale ⟨2000, 0, 30000, 25000⟩ 25000) = [12500, 0, 25000] ∧
    [10000, -9000].map (scale ⟨28000, 0, -28000, 2000⟩ 2000) = [642, 1321] ∧
    [12345, -500].map (scale ⟨0, 0, 20000, 800⟩ 800) = [493, 0] := by decide

/-- Section 4.3.3: the profile's codes. -/
theorem test_profile :
    [700, 800, 801, 950, 1001, 1100].map (fun d => valveCode defaultConstants (setPressure defaultRecipe d)) =
      [39500, 39500, 39621, 58250, 64625, 65535] := by decide

/-- R30: a completion at a range end is SATURATED and no longer STALE. -/
theorem test_conversion_completion :
    let c := (after (.conversionCompletion .p 32767) (ready 610)).mf.p
    (c.raw, c.value, c.saturated, c.stale, c.convTimer) = (32767, 25000, true, false, .running 20) := by decide

/-- Section 2.6 at 18000 ms: a forced cycle, with ZERO_FORCED on every port. -/
theorem test_zero_due_forces :
    let s := { ready 610 with mf := { (ready 610).mf with d := { powerOnChannel 50 with debt := 8, hold := ⟨true, false, false⟩ } } }
    let t := after (.zeroDueExpiry .d) s
    t.mf.d.debt = 8 ∧ t.mf.d.zeroing = true ∧ t.latch .c .zeroForced 1 = some 1 := by decide

/-- R34, log entry 5: a zero-due timer that does not run brings no completion. -/
theorem test_zero_due_stopped :
    let s := { ready 610 with mf := { (ready 610).mf with p := { powerOnChannel 20 with zeroDueTimer := .stopped } } }
    (after (.zeroDueExpiry .p) s).mf.p = s.mf.p := by decide

/-- Section 2.6 at 18040 ms. -/
theorem test_auto_zero_completion :
    let s := { ready 610 with mf := { (ready 610).mf with d := { powerOnChannel 50 with debt := 8, zeroing := true, convTimer := .stopped } } }
    let c := (after (.autoZeroCompletion .d) s).mf.d
    (c.debt, c.zeroing, c.convTimer, c.stale) = (7, false, .running 50, true) := by decide

/-- Section 4.7 at 12030. -/
theorem test_net_catch_expiry :
    let s := { live 1250 12030 [{ nettedBale 57 .netting 0 with formed := some 11000, netAttempts := 1 }] with
      cu := { idleChamber with netCatchTimer := .running 3000 } }
    let t := after .netCatchExpiry s
    t.bt.bales.map (fun b => (b.stage, b.formed)) = [(.forming, some 11000)] ∧ t.latch .a .netMiss 0 = some 57 ∧
      t.cu.dvCode = 65535 ∧ t.cu.baleFull = true ∧ t.cu.netCatchTimer = .stopped := by decide

/-- Section 5.8 at 5190. -/
theorem test_transfer_expiry :
    let s := { live 610 5190 [nettedBale 71 .ejecting 101500] with
      hu := { idleHandover with reservation := some 71, transferTimer := .running 10000 } }
    let t := after .transferTimerExpiry s
    t.bt.bales.map (fun b => (b.stage, b.flags.transferFault)) = [(.ejecting, true)] ∧
      t.latch .a .transfer 1 = some 71 ∧ t.latch .b .transfer 1 = some 71 ∧ t.latch .c .transfer 1 = none := by decide

/-! ### The wire -/

/-- R185: IDENTIFY is sent as 0x01, 0x00, 0xFF; it is answered once the check character is in. -/
theorem test_identify_frame :
    let s1 := after (.addressCharacter .a 0x50 false) (ready 610)
    let s2 := after (.dataCharacter .a 0x01 false) s1
    let s3 := after (.dataCharacter .a 0x00 false) s2
    let s4 := after (.dataCharacter .a 0xFF false) s3
    s3.la.tx = none ∧ s4.la.rx = .dozing ∧ s4.la.frames = 1 ∧
      reply .a s4 = some ⟨.ok, [0x01, 0x54, 0x01, 0x00, 0x50, 0x00]⟩ := by decide

/-- R185: a wrong check character counts CHECK and sets the LINK latch. -/
theorem test_check_error :
    let t := after (.dataCharacter .b 0x00 false)
      { ready 610 with lb := { idleLine with rx := .listening [0x01, 0x00] false } }
    t.lb.check = 1 ∧ t.lb.errorLatch = true ∧ t.lb.tx = none ∧ t.latch .b .link 0 = some 1 := by decide

/-- R184: the timeout abandons a partial frame. -/
theorem test_inter_character_timeout :
    let t := after (.interCharacterTimeout .a) { ready 610 with la := { idleLine with rx := .listening [0x01] false } }
    t.la.rx = .dozing ∧ t.la.abandoned = 1 := by decide

/-- R186: the end of a response takes the pending frame. -/
theorem test_transmission_completion :
    let s := { ready 610 with la := { idleLine with tx := some ⟨0x01, ⟨.ok, []⟩⟩, held := some ⟨0x0B, []⟩ } }
    let t := after (.responseTransmissionCompletion .a) s
    t.la.held = none ∧ reply .a t = some ⟨.notReady, []⟩ := by decide

/-- R187, Table 10-1: what port A sends begins with its station address, 0x50, as the address character; IDENTIFY's
response has 3 + 6 + 1 bytes, its payload of 6 after echo, status and length. -/
theorem test_sends :
    ((after (.identify .a []) (ready 610)).sends .a).length = 11 ∧
      ((after (.identify .a []) (ready 610)).sends .a).take 4 =
        [⟨true, 0x50⟩, ⟨false, 0x01⟩, ⟨false, 0x00⟩, ⟨false, 0x06⟩] := by decide

/-- R185, R189: READ CHANNEL on channel D is 0x18, 0x01, 0x01, 0xE6, written to 0x2C. -/
theorem test_write_transaction :
    reply .c (after (.writeTransaction ⟨0x2C, [0x18, 0x01, 0x01, 0xE6]⟩) (ready 610)) =
      some ⟨.ok, [0x02, 0x62, 0x00, 0x00, 0x00, 0x00, 0x00, 0x32]⟩ := by decide

/-- R189: the address and bytes 1 to 51 are acknowledged, the 52nd is not, and LENGTH steps; at another address there is
no acknowledgement and nothing is taken. -/
theorem test_write_acknowledgements :
    let t := after (.writeTransaction ⟨0x2C, List.replicate 52 0⟩) (ready 610)
    t.lc.acks = List.replicate 52 true ++ [false] ∧ t.lc.length = 1 ∧
      after (.writeTransaction ⟨0x2D, List.replicate 52 0⟩) (ready 610) = refreshAttention (ready 610) := by
  decide +kernel

/-- R202: while nRST is asserted LC does not acknowledge its address, and what the last transaction showed is gone. -/
theorem test_transactions_under_reset :
    let s := { ready 610 with nrstAsserted := true, lc := { idleTarget with acks := [true], sda := [0x00] } }
    let w := after (.writeTransaction ⟨0x2C, [0x18, 0x01, 0x01, 0xE6]⟩) s
    let r := after (.readTransaction ⟨0x2C, 4⟩) s
    w.lc = idleTarget ∧ r.lc = idleTarget := by decide

/-- R191: the idle frame, and 0xFF beyond it. -/
theorem test_read_transaction_idle :
    (after (.readTransaction ⟨0x2C, 6⟩) (ready 610)).lc.sda = [0x00, 0x00, 0x00, 0x00, 0xFF, 0xFF] := by decide

/-- R191: a response of four bytes, 0x01 + 0x00 + 0x00 + 0xFF, is consumed by a read of four and kept by one of three. -/
theorem test_read_transaction :
    let s := { ready 610 with lc := { idleTarget with buffer := some ⟨0x01, ⟨.ok, []⟩⟩ } }
    (after (.readTransaction ⟨0x2C, 4⟩) s).lc.sda = [0x01, 0x00, 0x00, 0xFF] ∧
      (after (.readTransaction ⟨0x2C, 4⟩) s).lc.buffer = none ∧
      (after (.readTransaction ⟨0x2C, 3⟩) s).lc.buffer = s.lc.buffer := by decide

/-- R192: an unknown code is echoed with UNKNOWN_COMMAND. -/
theorem test_unknown_command :
    (after (.unknownCommand .b 0x77 [0x01]) (ready 610)).lb.tx = some ⟨0x77, ⟨.unknownCommand, []⟩⟩ := by decide

/-! ### Reading the part -/

/-- Table 10-5: 26 bytes; the run clock leads, TAILGATE alone is marked, the angle is 40. -/
theorem test_read_status :
    (reply .a (after (.readStatus .a []) (live 610 30000 []))).map
      (fun r => (r.status, r.payload.length, r.payload.take 7)) =
      some (.ok, 26, [0x00, 0x00, 0x75, 0x30, 0x02, 0x00, 0x28]) := by decide

/-- R194, R195: chunk 3 of a 174-byte image has 33 bytes and ends it. -/
theorem test_read_next :
    (reply .a (after (.readNext .a [3]) { ready 610 with la := { idleLine with image := some ⟨List.replicate 174 7, 2⟩ } })).map
      (fun r => (r.status, r.payload.length, r.payload.head?)) = some (.ok, 34, some 3) := by decide +kernel

/-- R21, R194: the image of a record without a wrap section is 90 bytes, so more remain after chunk 0. -/
theorem test_read_bale :
    let t := after (.readBale .a [1, 0, 1]) (live 610 0 [bale 120 .forming])
    (reply .a t).map (fun r => (r.status, r.payload.take 5)) = some (.more, [0x00, 0x00, 0x78, 0x00, 0x01]) ∧
      t.la.image.map (fun x => (x.bytes.length, x.lastChunk)) = some (90, 0) := by decide

/-- R41: READ CHANNEL on M at power-on: STALE, period 100. -/
theorem test_read_channel :
    reply .b (after (.readChannel .b [2]) (ready 610)) = some ⟨.ok, [0, 0, 0, 0, 0x01, 0, 0, 100]⟩ := by decide

/-- R57: the image of slot 3 shows the flag clear and the default target diameter. -/
theorem test_read_recipe :
    (reply .c (after (.readRecipe .c [3]) (ready 610))).map (fun r => (r.status, r.payload.take 5)) =
      some (.ok, [0x00, 0x03, 0x00, 0x04, 0xE2]) := by decide

/-- R62: group 0 holds period 20 and the pair (0, 0), (30000, 25000). -/
theorem test_read_machine :
    reply .a (after (.readMachine .a [0]) (ready 610)) =
      some ⟨.ok, [0x00, 0x14, 0x00, 0x00, 0x00, 0x00, 0x75, 0x30, 0x61, 0xA8]⟩ := by decide

/-- R151: after power-on nothing is known and both dispensers are OUT. -/
theorem test_read_stock :
    reply .b (after (.readStock .b []) (ready 610)) =
      some ⟨.ok, [0, 0, 0, 0, 0, 3, 0, 0, 0, 0, 0, 0, 0, 0, 3, 0, 0, 0, 0, 0, 0, 0, 0, 0, 0]⟩ := by decide

/-! ### Notices and link units -/

/-- Port B of section 9.9 with TRANSFER 0 and STAGE 2 set for bale 82 and a threshold of 100. -/
def noticeState : State :=
  (setLatch .b .transfer 0 82 (setLatch .b .stage 2 82 (ready 610))).modifyArbiter .b
    (fun a => { a with plan := { a.plan with threshold := 100 } })

/-- Section 9.9, step 2. -/
theorem test_take_notice :
    reply .b (after (.takeNotice .b []) noticeState) = some ⟨.ok, [6, 0, 192, 0, 82, 1]⟩ := by decide

/-- Section 9.9, step 3: the acknowledgement leaves STAGE 2, below the threshold. -/
theorem test_ack_current :
    let t := after (.ackCurrent .b []) (after (.takeNotice .b []) noticeState)
    reply .b t = some ⟨.ok, [1, 0]⟩ ∧ t.latch .b .transfer 0 = none ∧ t.latch .b .stage 2 = some 82 ∧
      t.na.b.attention = false := by decide

/-- R174: a clear place is answered with the mark clear; port A's places are its own. -/
theorem test_ack_notice :
    reply .a (after (.ackNotice .a [6, 0]) noticeState) = some ⟨.ok, [0, 0]⟩ ∧
      (after (.ackNotice .a [6, 0]) noticeState).latch .b .transfer 0 = some 82 := by decide

/-- R177: a trigger level of 9 becomes 12. -/
theorem test_set_notice_plan :
    (after (.setNoticePlan .c ([0x02] ++ List.replicate 20 0 ++ [9, 0])) (ready 610)).na.c.plan.trigger = 12 := by decide

/-- R198: FRAMES with this command counted; the error latch is cleared after it is shown. -/
theorem test_read_link_stats :
    let t := after (.readLinkStats .a [1]) { ready 610 with la := { idleLine with framing := 2, errorLatch := true } }
    reply .a t = some ⟨.ok, [1, 0, 2, 0, 0, 1, 0, 0]⟩ ∧ t.la.errorLatch = false ∧ t.la.framing = 2 := by decide

/-- R201: every counter becomes 0, and the latches of the port are cleared. -/
theorem test_port_reset :
    let t := after (.portReset .b []) { noticeState with lb := { idleLine with check := 5, errorLatch := true } }
    t.lb.check = 0 ∧ t.lb.frames = 0 ∧ t.latch .b .transfer 0 = none ∧ reply .b t = some ⟨.ok, []⟩ := by decide

/-! ### Channel commands -/

/-- Section 2.6 at 0 ms. -/
theorem test_hold_zero : reply .a (after (.holdZero .a [1]) (ready 610)) = some ⟨.ok, [0, 1, 0]⟩ := by decide

/-- Section 2.6 at 21000 ms: the cycle starts as the command is taken. -/
theorem test_release_zero :
    let s := { ready 610 with mf := { (ready 610).mf with d := { powerOnChannel 50 with debt := 8, hold := ⟨true, false, false⟩ } } }
    reply .a (after (.releaseZero .a [1]) s) = some ⟨.ok, [8, 0, 1]⟩ := by decide

/-- R39: at a debt of -8 it is refused; a cycle starts at -7, shown as a signed byte. -/
theorem test_prezero :
    let s (n : Int) := { ready 610 with mf := { (ready 610).mf with p := { powerOnChannel 20 with debt := n } } }
    reply .c (after (.prezero .c [0]) (s (-8))) = some ⟨.notReady, []⟩ ∧
      reply .c (after (.prezero .c [0]) (s (-7))) = some ⟨.ok, [0xF9]⟩ := by decide

/-! ### Commands on bales -/

/-- Section 11.1.2 at 30000: bale 120 FORMING, code 39500, counter 121. -/
theorem test_open_bale :
    let s := { ready 610 with bt := ⟨[], 120, 30000⟩ }
    let t := after (.openBale .a [0]) s
    t.bt.bales.map (fun b => (b.seq, b.stage, b.opened, b.formed)) = [(120, .forming, 30000, some 30000)] ∧
      t.bt.seqCounter = 121 ∧ t.cu.dvCode = 39500 ∧ t.latch .b .stage 1 = some 120 ∧
      reply .a t = some ⟨.ok, [0x00, 0x78, 0x01]⟩ := by decide

/-- R11: the counter steps past 65535 and past a live `seq`. -/
theorem test_counter_wraps :
    (after (.openBale .a [0]) { ready 610 with bt := ⟨[bale 1 .wrapped], 65535, 0⟩ }).bt.seqCounter = 2 := by decide

/-- Section 11.1.3 at 30993. -/
theorem test_dump_prechamber :
    let t := after (.dumpPrechamber .a []) (live 655 30993 [nettedBale 120 .ejecting 101500, bale 121 .gathering])
    t.bt.bales.map (fun b => (b.stage, b.formed)) = [(.ejecting, none), (.forming, some 30993)] ∧ t.cu.dvCode = 39500 ∧
      reply .a t = some ⟨.ok, [0x00, 0x79]⟩ := by decide

/-- Section 11.1.3: with the tailgate open it is refused with NOT_READY. -/
theorem test_dump_prechamber_open :
    reply .a (after (.dumpPrechamber .a [])
      { live 655 30985 [bale 121 .gathering] with mi := { readyInputs with tailgate := ⟨false, false, .stopped⟩ } }) =
      some ⟨.notReady, []⟩ := by decide

/-- Section 11.1.2 at 30900: `net_target` 101175 and attempt 1. -/
theorem test_net_start :
    let t := after (.netStart .a []) (live 1250 30900 [bale 120 .forming])
    t.bt.bales.map (fun b => (b.stage, b.net)) = [(.netting, some ⟨1250, 39270, 101175, 0⟩)] ∧
      t.cu.netCatchTimer = .running 3000 ∧
      reply .a t = some ⟨.ok, [0x00, 0x78, 0x04, 0xE2, 0x00, 0x01, 0x8B, 0x37, 0x01, 0x00]⟩ := by decide

/-- R83: the record returns to FORMING, and what was metered is returned. -/
theorem test_net_abort :
    let t := after (.netAbort .a []) (live 1250 12100 [nettedBale 57 .netting 500])
    t.bt.bales.map (fun b => (b.stage, b.formed)) = [(.forming, some 12100)] ∧ t.latch .a .netMiss 0 = none ∧
      reply .a t = some ⟨.ok, [0x00, 0x39, 0x00, 0x00, 0x01, 0xF4]⟩ := by decide

/-- Section 11.1.3 at 30980: granted at once, with no EJECT_GRANT. -/
theorem test_request_eject :
    let t := after (.requestEject .a [0, 120]) (live 610 30980 [nettedBale 120 .netted 101500])
    t.bt.bales.map (fun b => (b.stage, b.ejected)) = [(.ejecting, some 30980)] ∧
      t.hu = ⟨some 120, none, false, .running 10000⟩ ∧ t.latch .a .ejectGrant 0 = none ∧
      reply .a t = some ⟨.ok, [0x00, 0x78, 0x00]⟩ := by decide

/-- Section 5.8 at 5000: QUEUED, with the reservation's mark. -/
theorem test_request_eject_queued :
    let s := { live 610 5000 [{ wrappingBale 70 freshWrap with stage := .wrapped }, nettedBale 71 .netted 101500] with
      hu := { idleHandover with reservation := some 70 } }
    let t := after (.requestEject .a [0, 71]) s
    t.hu.ejectSlot = some 71 ∧ reply .a t = some ⟨.queued, [0x00, 0x47, 0x01]⟩ := by decide

/-- R94: the mark is set when a waiting request was withdrawn. -/
theorem test_cancel_eject :
    let s := { live 610 5070 [{ nettedBale 71 .netted 101500 with ejectRequested := true }] with
      hu := { idleHandover with ejectSlot := some 71 } }
    let t := after (.cancelEject .a [0, 71]) s
    t.hu.ejectSlot = none ∧ t.bt.bales.map Bale.ejectRequested = [false] ∧
      reply .a t = some ⟨.ok, [0x00, 0x47, 0x01]⟩ := by decide

/-- Section 11.2.5 at 52700: the newer of two waiting reports is kept. -/
theorem test_discard_bale :
    let s := { live 610 52700 [nettedBale 141 .ejecting 101500, bale 142 .gathering] with
      hu := { idleHandover with reservation := some 141 }, rq := { fullQueue with holding := some (report 140) } }
    let t := after (.discardBale .a [0, 142]) s
    t.bt.bales.map Bale.seq = [141] ∧ t.rq.holding.map (fun r => (r.seq, r.closeReason)) = some (142, some .discarded) ∧
      t.rq.lost = 1 ∧ t.rq.overrun = true ∧ t.latch .c .stage 0 = some 142 := by decide

/-- R126: a forced tip of a WRAPPING record. -/
theorem test_tip_forced :
    let t := after (.tip .b [1]) (wrappingState 31910 40 freshWrap 120 (running 1 0 0) (running 1 0 0))
    t.bt.bales.map (fun b => (b.stage, b.flags.underwrapped, b.flags.forcedTip, b.wrapped)) =
      [(.tipping, true, true, none)] ∧ reply .b t = some ⟨.ok, [0x00, 0x78, 0x01]⟩ := by decide

/-- R124: the lowest count and `revolutions` are returned, with no WRAP_DONE. -/
theorem test_abandon_wrap :
    let w := { freshWrap with layers := List.replicate 63 4 ++ [2], revolutions := 9 }
    let t := after (.abandonWrap .b []) (wrappingState 31910 40 w 120 (running 1 0 0) (running 1 0 0))
    t.bt.bales.map (fun b => (b.stage, b.flags.underwrapped)) = [(.wrapped, true)] ∧ t.latch .b .wrapDone 0 = none ∧
      reply .b t = some ⟨.ok, [0x00, 0x78, 0x02, 0x09]⟩ := by decide +kernel

/-- R95, R93: with the hold cleared the waiting request is granted, and the answer shows it. -/
theorem test_free_table :
    let s := { live 610 5090 [{ nettedBale 71 .netted 101500 with ejectRequested := true }] with
      hu := ⟨none, some 71, true, .stopped⟩ }
    let t := after (.freeTable .b []) s
    t.bt.bales.map Bale.stage = [.ejecting] ∧ reply .b t = some ⟨.ok, [0, 0, 71, 0, 0]⟩ := by decide

/-- R95: the hold set. -/
theorem test_hold_table : reply .b (after (.holdTable .b []) (ready 610)) = some ⟨.ok, [1, 0, 0, 0, 0]⟩ := by decide

/-! ### Dispensers, recipes, constants, reports -/

/-- R139: a RUNNING dispenser is refused, one OUT with an unknown stock is restored. -/
theorem test_restore_dispenser :
    reply .b (after (.restoreDispenser .b [1]) { ready 610 with ds := { powerOnStock with film := ⟨running 5 0 0, powerOnDispenser⟩ } }) =
      some ⟨.notReady, []⟩ ∧
    (after (.restoreDispenser .b [2]) (ready 610)).ds.film.two.state = .running := by decide

/-- R140: the former state is returned. -/
theorem test_withdraw_dispenser :
    let t := after (.withdrawDispenser .b [1]) { ready 610 with ds := { powerOnStock with film := ⟨running 5 0 7, powerOnDispenser⟩ } }
    t.ds.film.one = ⟨.out, 7, 0, 5, true⟩ ∧ reply .b t = some ⟨.ok, [1, 0]⟩ := by decide

/-- R146, R147: a length above the range is clamped and marked; an EMPTY dispenser becomes OUT. -/
theorem test_new_roll :
    let t := after (.newRoll .c [1, 0xFF, 0xFF, 0xFF, 0xFF])
      { ready 610 with ds := { powerOnStock with film := ⟨⟨.empty, 3, 90, 0, true⟩, powerOnDispenser⟩ } }
    t.ds.film.one = ⟨.out, 3, 0, 3000000, true⟩ ∧ reply .c t = some ⟨.ok, [1, 0x00, 0x2D, 0xC6, 0xC0, 1, 3]⟩ := by decide +kernel

/-- The payload of the first command of section 3.6: slot 3; valid, target diameter, R and M2 altered. -/
def firstLoad : List Byte :=
  [3, 0x02, 0x23, 1, 0x08, 0x34, 0, 0, 0, 0, 0, 0, 0, 0, 0, 0, 0, 0, 0, 0x01, 0x5E, 0, 0, 0, 0, 0, 0, 0]

/-- Section 3.6, first command: the mask marks target diameter, R and M1. -/
theorem test_load_recipe :
    let t := after (.loadRecipe .c firstLoad) (ready 610)
    (t.rs.slots[3]?).map (fun x => (x.valid, x.recipe)) =
      some (true, { defaultRecipe with targetDiameter := 1800, r := 1, m1 := 350, m2 := 350 }) ∧
    reply .c t = some ⟨.ok, [3, 1, 0x01, 0x22]⟩ := by decide +kernel

/-- Section 3.6, third command: `op_limit` written 800 becomes 1000, `op_hyst` 999, both marked. -/
theorem test_set_machine :
    let t := after (.setMachine .c ([3, 0x00, 0x80] ++ List.replicate 12 0 ++ [0x03, 0x20] ++ List.replicate 14 0)) (ready 610)
    t.rs.constants = { defaultConstants with opLimit := 1000, opHyst := 999 } ∧
      reply .c t = some ⟨.ok, [3, 0x01, 0x80]⟩ := by decide +kernel

/-- Section 11.2.6 at 52905: chunk 0 of the head's image. -/
theorem test_fetch_report :
    (reply .c (after (.fetchReport .c []) { ready 610 with rq := fullQueue })).map (fun r => (r.status, r.payload.take 3)) =
      some (.more, [0, 0, 124]) := by decide

/-- Section 11.2.6 at 52920: the held report moves to the tail. -/
theorem test_release_report :
    let t := after (.releaseReport .c [0, 124]) { ready 610 with rq := { fullQueue with holding := some (report 142), lost := 1 } }
    t.rq.queue.map Bale.seq = (List.range 15).map (fun k => 125 + k) ++ [142] ∧ t.rq.holding = none ∧
      reply .c t = some ⟨.ok, [0, 124, 16, 0, 0, 125]⟩ := by decide

/-- R160, R196: RELEASE REPORT leaves port A's image; that it discards port C's own is log entry 28. -/
theorem test_release_report_images :
    let image : Image := ⟨baleImage (report 124), 0⟩
    let t := after (.releaseReport .c [0, 124])
      { ready 610 with rq := fullQueue, la := { idleLine with image := some image }, lc := { idleTarget with image := some image } }
    t.rq.queue.length = 15 ∧ t.la.image = some image ∧ t.lc.image = none := by decide

/-- Section 11.2.6 at 52900. -/
theorem test_queue_status :
    let t := after (.queueStatus .c [1])
      { ready 610 with rq := { fullQueue with holding := some (report 142), lost := 1, overrun := true } }
    reply .c t = some ⟨.ok, [16, 1, 0, 1, 1, 0, 124]⟩ ∧ t.rq.overrun = false ∧ t.rq.lost = 1 := by decide

/-! ### Witnesses: for each statement with hypotheses, states and operands that meet them, clause by clause -/

/-- A state with nRST asserted and no record. -/
def underReset : State := { ready 610 with nrstAsserted := true }

/-- A record in the chamber between an older one on the table and a younger one in the pre-chamber. -/
def chamberState (b : Bale) : State :=
  { live 610 500 [bale 5 .wrapped, b, bale 58 .gathering] with hu := { idleHandover with reservation := some 5 } }

/-- A record on the table before a NETTED one in the chamber. -/
def tableState (b : Bale) : State :=
  { live 610 500 [b, nettedBale 71 .netted 101500] with hu := { idleHandover with reservation := some b.seq } }

/-- A NETTED chamber record whose request waits, before a GATHERING one. -/
def waitingState : State :=
  { live 610 500 [{ nettedBale 71 .netted 101500 with ejectRequested := true }, bale 72 .gathering] with
    hu := { idleHandover with ejectSlot := some 71 } }

/-- The WRAPPING state of section 11.1.4's figures. -/
def wrapState : State := wrappingState 0 40 freshWrap 120 (running 5 0 0) (running 5 0 0)

/-- A request row of port C, for which a response waits to be read. -/
def losingState : State := { ready 610 with lc := { idleTarget with buffer := some ⟨0x01, ⟨.ok, []⟩⟩ } }

theorem holds_chamber (b : Bale) (h : b.stage.zone = .chamber) :
    (chamberState b).HoldsIn .chamber [bale 5 .wrapped] b [bale 58 .gathering] :=
  ⟨rfl, h, by decide⟩

theorem holds_table (b : Bale) (h : b.stage.zone = .table) :
    (tableState b).HoldsIn .table [] b [nettedBale 71 .netted 101500] :=
  ⟨rfl, h, by decide⟩

theorem holds_wrap : wrapState.HoldsIn .table [] (wrappingBale 120 freshWrap) [] := ⟨rfl, rfl, by decide⟩

theorem holds_waiting :
    waitingState.HoldsIn .chamber [] { nettedBale 71 .netted 101500 with ejectRequested := true } [bale 72 .gathering] :=
  ⟨rfl, rfl, by decide⟩

theorem falls_waiting : ZonesFall waitingState := by unfold ZonesFall; decide

theorem falls_wrap : ZonesFall wrapState := by unfold ZonesFall; decide

theorem drive_wrap : DriveInv wrapState := by unfold DriveInv; decide

theorem witness_StepRunsTheFrontCommand : State.reset.pending = [] := rfl

theorem witness_ClockTickAndOutputSlots :
    (live 0 4294967295 []).bt.runClock ≤ 4294967295 ∧
    (let s := { ready 0 with cu := { idleChamber with dvCode := 49152, pdmAcc := 16384 } }
     s.cu.dvCode ≤ 65535 ∧ s.cu.pdmAcc ≤ 65535 ∧ 65536 ≤ s.cu.pdmAcc + s.cu.dvCode) ∧
    (let s := { ready 0 with cu := { idleChamber with dvCode := 49152, pdmAcc := 16383 } }
     s.cu.pdmAcc + s.cu.dvCode < 65536) := by decide

theorem witness_PinReset : underReset.nrstAsserted = true ∧ (ready 610).nrstAsserted = false := ⟨rfl, rfl⟩

theorem witness_NothingReachesThePartUnderReset :
    underReset.nrstAsserted = true ∧ silentUnderReset (.identify .a []) = true ∧
      silentUnderReset (.zeroDueExpiry .p) = true := ⟨rfl, rfl, rfl⟩

theorem witness_LevelInputs :
    let s := settling .stop (ready 610)
    (true ≠ ((ready 610).mi.level .stop).pin ∧ true ≠ ((ready 610).mi.level .stop).filtered) ∧
    (false ≠ (s.mi.level .stop).pin ∧ false = (s.mi.level .stop).filtered) ∧
    true = (s.mi.level .stop).pin ∧ (s.mi.level .stop).timer.isRunning = true ∧
    (s.mi.level .tailgate).timer.isRunning = false ∧
    ((settling .tailgate (ready 610)).mi.level .tailgate).timer.isRunning = true := by decide

theorem witness_StopRisingAndFalling :
    (let s := settling .stop (ready 610)
     s.nrstAsserted = false ∧ s.mi.stop.timer.isRunning = true ∧ s.mi.stop.pin = true ∧ s.mi.stop.filtered = false) ∧
    (let s := settling .stop { ready 610 with mi := { readyInputs with stop := ⟨true, true, .stopped⟩ } }
     s.nrstAsserted = false ∧ s.mi.stop.timer.isRunning = true ∧ s.mi.stop.pin = false ∧ s.mi.stop.filtered = true ∧
       ¬ (s.WaitingRequest ∧ s.hu.reservation = none ∧ s.hu.tableHold = false)) := by
  refine ⟨by decide, by decide, by decide, by decide, by decide, ?_⟩
  rintro ⟨⟨b, hb, -⟩, -⟩
  exact nomatch hb

theorem witness_QueuedEjectIsGranted :
    let s := settling .stop { waitingState with mi := { readyInputs with stop := ⟨true, true, .stopped⟩ } }
    s.nrstAsserted = false ∧ ZonesFall s ∧
    s.HoldsIn .chamber [] { nettedBale 71 .netted 101500 with ejectRequested := true } [bale 72 .gathering] ∧
    s.hu.ejectSlot = some 71 ∧ s.hu.reservation = none ∧
    (s.mi.stop.timer.isRunning = true ∧ s.mi.stop.pin = false ∧ s.mi.stop.filtered = true ∧ s.hu.tableHold = false) ∧
    waitingState.mi.stop.filtered = false :=
  ⟨rfl, falls_waiting, ⟨rfl, rfl, by decide⟩, rfl, rfl, by decide, rfl⟩

theorem witness_TableLoadedRising :
    (let s := settling .tableLoaded (tableState (nettedBale 70 .ejecting 101500))
     s.nrstAsserted = false ∧ ZonesFall s ∧ s.mi.tableLoaded.timer.isRunning = true ∧ s.mi.tableLoaded.pin = true ∧
       s.mi.tableLoaded.filtered = false ∧
       s.HoldsIn .table [] (nettedBale 70 .ejecting 101500) [nettedBale 71 .netted 101500] ∧ DriveInv s) ∧
    layersFor (nettedBale 70 .ejecting 101500) ≠ 0 ∧
    layersFor { nettedBale 70 .ejecting 101500 with recipe := { defaultRecipe with l3 := 0 } } = 0 ∧
    (let s := settling .tableLoaded (ready 610)
     s.mi.tableLoaded.timer.isRunning = true ∧ s.mi.tableLoaded.filtered = false ∧ s.recordIn .table = none) := by
  refine ⟨⟨rfl, ?_, rfl, rfl, rfl, ⟨rfl, rfl, by decide⟩, ?_⟩, by decide, by decide, by decide⟩
  · unfold ZonesFall; decide
  · unfold DriveInv; decide

theorem witness_TableLoadedFallingClosesTheBale :
    let falling (s : State) : State := settling .tableLoaded { s with mi := { s.mi with tableLoaded := ⟨true, true, .stopped⟩ } }
    let s := falling (tableState (bale 70 .wrapping))
    s.nrstAsserted = false ∧ s.mi.tableLoaded.timer.isRunning = true ∧ s.mi.tableLoaded.pin = false ∧
    s.mi.tableLoaded.filtered = true ∧ ZonesFall s ∧ s.hu.tableHold = false ∧ s.mi.stop.filtered = false ∧
    s.bt.bales = bale 70 .wrapping :: [nettedBale 71 .netted 101500] ∧ s.hu.ejectSlot = none ∧
    (falling (tableState (bale 70 .ejecting))).recordIn .table = some (bale 70 .ejecting) ∧
    ({ s with hu := { s.hu with ejectSlot := some 71 } } : State).hu.ejectSlot = some 71 := by
  refine ⟨rfl, rfl, rfl, rfl, ?_, rfl, rfl, rfl, rfl, by decide, rfl⟩
  unfold ZonesFall; decide

theorem witness_TablePulse :
    wrapState.nrstAsserted = false ∧ 64 ≤ wrapState.rs.constants.tablePulses ∧
    wrapState.mi.angle < wrapState.rs.constants.tablePulses ∧ ZonesFall wrapState ∧ DriveInv wrapState ∧
    wrapState.HoldsIn .table [] (wrappingBale 120 freshWrap) [] ∧ (ready 610).wrapping = none ∧
    (255 : Nat) < wrapState.rs.constants.tablePulses ∧ (127 + 1 : Nat) = wrapState.rs.constants.tablePulses / 2 :=
  ⟨rfl, by decide, by decide, falls_wrap, drive_wrap, holds_wrap, rfl, by decide, by decide⟩

theorem witness_TableIndex :
    wrapState.nrstAsserted = false ∧ wrapState.wrapping.isSome = true ∧ ZonesFall wrapState ∧ DriveInv wrapState ∧
    (ready 610).wrapping = none := ⟨rfl, rfl, falls_wrap, drive_wrap, rfl⟩

theorem witness_LayPosition :
    wrapState.HoldsIn .table [] (wrappingBale 120 freshWrap) [] ∧ freshWrap.layers ≠ [] ∧
    (wrapState.ds.film.get .one).state = .running ∧ wrapState.mi.stop.filtered = false ∧
    ((ready 610).ds.film.get .one).state ≠ .running := ⟨holds_wrap, by decide, rfl, rfl, by decide⟩

theorem witness_RevolutionStep :
    (39 + 1 : Nat) = defaultRecipe.maxRevs ∧ defaultRecipe.maxRevs ≤ stepSaturating 39 255 ∧
    ¬ defaultRecipe.maxRevs ≤ stepSaturating 38 255 := by decide

theorem witness_BaleRoll :
    wrapState.nrstAsserted = false ∧ wrapState.HoldsIn .table [] (wrappingBale 120 freshWrap) [] ∧ 0 < freshWrap.circ ∧
    (ready 610).wrapping = none := ⟨rfl, holds_wrap, by decide, rfl⟩

theorem witness_NetRoll :
    let b := nettedBale 57 .netting 100675
    let s := chamberState b
    s.nrstAsserted = false ∧ s.HoldsIn .chamber [bale 5 .wrapped] b [bale 58 .gathering] ∧ b.stage = .netting ∧
    DriveInv { s with cu := { s.cu with dvCode := 0 } } ∧ (100674 + s.rs.constants.netStep : Nat) < 101175 ∧
    101175 ≤ 100675 + s.rs.constants.netStep ∧ (ready 610).recordIn .chamber = none := by
  refine ⟨rfl, holds_chamber _ rfl, rfl, ?_, by decide, by decide, rfl⟩
  unfold DriveInv; decide

theorem witness_FilmPulse : (ready 610).nrstAsserted = false := rfl

theorem witness_SectorsAndLayers :
    (62 : Nat) < 63 ∧ (0 : Nat) < 39270 ∧ (63 : Nat) < 64 ∧ (28274 : Nat) ≤ 28274 ∧
    ([31, 30] : List Nat)[0]? = some 31 ∧ (31 : Nat) ≤ 31 := by decide

theorem witness_ConversionCompletion :
    (ready 610).nrstAsserted = false ∧ ((ready 610).mf.get .d).convTimer.isRunning = true ∧
    (let c := { powerOnChannel 50 with debt := 1 }
     1 ≤ c.debt ∧ c.hold = ⟨false, false, false⟩ ∧ c.zeroing = false) ∧ ¬ 1 ≤ ((ready 610).mf.get .d).debt ∧
    ({ powerOnChannel 50 with convTimer := .stopped, zeroing := true } : ChannelRecord).convTimer.isRunning = false := by
  decide

theorem witness_PressureCompletion :
    let b := bale 57 .forming
    (chamberState b).nrstAsserted = false ∧ (chamberState b).mf.p.convTimer.isRunning = true ∧
    (chamberState b).HoldsIn .chamber [bale 5 .wrapped] b [bale 58 .gathering] ∧ (ready 610).recordIn .chamber = none ∧
    (ready 610).cu.lockout = false ∧ ({ idleChamber with lockout := true } : ChamberUnit).lockout = true ∧
    (ready 610).rs.constants.opHyst ≤ (ready 610).rs.constants.opLimit :=
  ⟨rfl, rfl, holds_chamber _ rfl, rfl, rfl, rfl, by decide⟩

theorem witness_DiameterAndMoistureCompletion :
    let b := { bale 57 .forming with moistureCount := 65534 }
    (chamberState b).nrstAsserted = false ∧ (chamberState b).mf.d.convTimer.isRunning = true ∧
    (chamberState b).mf.m.convTimer.isRunning = true ∧ (chamberState b).recordIn .chamber = some b ∧
    (chamberState b).HoldsIn .chamber [bale 5 .wrapped] b [bale 58 .gathering] ∧ b.stage = .forming ∧
    (chamberState (bale 57 .netting)).recordIn .chamber = some (bale 57 .netting) :=
  ⟨rfl, rfl, rfl, by decide, holds_chamber _ rfl, rfl, by decide⟩

theorem witness_DensityProfile :
    1 ≤ defaultRecipe.r ∧ 800 ≤ defaultRecipe.dc ∧ (defaultRecipe.dc < 801 ∧ 1099 < defaultRecipe.dc + defaultRecipe.r) ∧
    defaultRecipe.dc + defaultRecipe.r ≤ 1100 := by decide

theorem witness_ZeroDueAndAutoZero :
    let c : ChannelRecord := powerOnChannel 50
    (0 ≤ c.debt ∧ c.debt < 8 ∧ c.hold = ⟨false, false, false⟩ ∧ c.zeroing = false) ∧
    ({ c with debt := 7 }.debt < 8) ∧ ({ c with debt := -1 }.debt < 8 ∧ ¬ 0 ≤ { c with debt := -1 }.debt) ∧
    ({ c with debt := 8 }.debt = 8 ∧ { c with debt := 8 }.zeroing = false) ∧
    { c with debt := 8, zeroing := true }.zeroing = true ∧ (ready 610).nrstAsserted = false ∧
    ((ready 610).mf.get .d).zeroDueTimer.isRunning = true ∧ { c with zeroDueTimer := .stopped }.zeroDueTimer.isRunning = false ∧
    c.zeroing = false := by decide

theorem witness_NetCatchAndTransferExpiry :
    let b := nettedBale 57 .netting 0
    let s := { chamberState b with cu := { idleChamber with netCatchTimer := .running 3000 } }
    let e := nettedBale 70 .ejecting 0
    let u := { tableState e with hu := { (tableState e).hu with transferTimer := .running 10000 } }
    s.nrstAsserted = false ∧ s.cu.netCatchTimer.isRunning = true ∧
    s.HoldsIn .chamber [bale 5 .wrapped] b [bale 58 .gathering] ∧ u.nrstAsserted = false ∧
    u.hu.transferTimer.isRunning = true ∧ u.HoldsIn .table [] e [nettedBale 71 .netted 101500] ∧
    (ready 610).cu.netCatchTimer.isRunning = false ∧ (ready 610).hu.transferTimer.isRunning = false :=
  ⟨rfl, rfl, ⟨rfl, rfl, by decide⟩, rfl, rfl, ⟨rfl, rfl, by decide⟩, rfl, rfl⟩

/-- A part whose port A listens with the given characters. -/
def listening (chars : List Byte) (damaged : Bool) : State :=
  { ready 610 with la := { idleLine with rx := .listening chars damaged } }

theorem witness_AddressCharacterAndTimeout :
    (ready 610).nrstAsserted = false ∧ ((listening [0x01] false).line .a).rx = .listening (0x01 :: []) false ∧
    ((listening [] true).line .a).rx = .listening [] true ∧ ((ready 610).line .a).rx = .dozing ∧
    (0x50 : Byte).toNat = addressOf (ready 610).straps .a := ⟨rfl, rfl, rfl, rfl, rfl⟩

theorem witness_DataCharacter :
    (listening [0x01] false).nrstAsserted = false ∧ (ready 610).la.rx = .dozing ∧
    (([0x01] : List Byte).length = 1 ∧ 48 < (49 : Byte).toNat ∧ (48 : Byte).toNat ≤ 48) ∧
    (let chars : List Byte := [0x18, 0x01]
     2 ≤ chars.length ∧ chars.length + 1 ≠ 3 + nat1 chars 1) ∧
    (let chars : List Byte := [0x18, 0x01, 0x01]
     2 ≤ chars.length ∧ chars.length + 1 = 3 + nat1 chars 1 ∧ byteSum (chars ++ [0xE5]) ≠ 0 ∧ (true || false) = true) := by
  decide

theorem witness_GoodFrame :
    let s := listening [0x18, 1, 0x01] false
    let busy : LineLink := { s.la with tx := some ⟨0x01, ⟨.ok, []⟩⟩ }
    s.nrstAsserted = false ∧ (1 : Byte).toNat = ([0x01] : List Byte).length ∧
    (s.line .a).rx = .listening (0x18 :: 1 :: [0x01]) false ∧ byteSum ((0x18 :: 1 :: [0x01]) ++ [0xE6]) = 0 ∧
    requestRow (.readChannel .a [0x01]) = some (linePort .a, 0x18, [0x01]) ∧ (s.line .a).tx = none ∧
    (busy.tx.isSome = true ∧ busy.held = none) ∧ { busy with held := some ⟨0x01, []⟩ }.held.isSome = true :=
  ⟨rfl, rfl, rfl, by decide, rfl, rfl, ⟨rfl, rfl⟩, rfl⟩

theorem witness_ResponseTransmissionCompletion :
    let busy : LineLink := { idleLine with tx := some ⟨0x01, ⟨.ok, []⟩⟩ }
    (ready 610).nrstAsserted = false ∧ ((ready 610).line .a).tx = none ∧ (busy.tx.isSome = true ∧ busy.held = none) ∧
    { busy with held := some ⟨0x0B, []⟩ }.held = some ⟨0x0B, []⟩ ∧
    requestRow (.ackCurrent .a []) = some (linePort .a, 0x0B, []) := ⟨rfl, rfl, ⟨rfl, rfl⟩, rfl, rfl⟩

theorem witness_PortCTransactions :
    (ready 610).nrstAsserted = false ∧ (0x2C : BitVec 7).toNat = 0x2C + (ready 610).straps.c.toNat ∧
    (0x2D : BitVec 7).toNat ≠ 0x2C + (ready 610).straps.c.toNat ∧
    (let long : List Byte := List.replicate 52 0
     long ≠ [] ∧ 51 < long.length) ∧
    (([0x18] : List Byte) ≠ [] ∧ ([0x18] : List Byte).length ≠ 3 + nat1 [0x18] 1) ∧
    (let full : List Byte := 0x01 :: 48 :: List.replicate 49 0
     full.length = 51 ∧ full.length = 3 + nat1 full 1 ∧ byteSum full ≠ 0) ∧
    (let good : List Byte := 0x18 :: 1 :: [0x01] ++ [0xE6]
     (1 : Byte).toNat = ([0x01] : List Byte).length ∧ byteSum good = 0) ∧
    requestRow (.readChannel .c [0x01]) = some (.c, 0x18, [0x01]) ∧ (ready 610).lc.buffer = none ∧
    losingState.lc.buffer = some ⟨0x01, ⟨.ok, []⟩⟩ ∧ (3 : Nat) < ([] : List Byte).length + 4 ∧
    ([] : List Byte).length + 4 ≤ 4 := by decide +kernel

theorem witness_RequestTaken :
    losingState.nrstAsserted = false ∧ requestRow (.readNext .c [1]) = some (.c, 0x03, [1]) ∧ losingState.loses .c = true ∧
    requestRow (.identify .b []) = some (.b, 0x01, []) ∧ Port.b = linePort .b ∧
    (0x01 : Byte) ≠ 0x03 ∧ (0x01 : Byte) ≠ 0x0F ∧ (0x01 : Byte) ∉ ([0x03, 0x10, 0x41, 0x48] : List Byte) := by decide

theorem witness_RefusalsChangeNothing :
    (ready 610).nrstAsserted = false ∧ requestRow (.unknownCommand .a 0x04 []) = some (.a, 0x04, []) ∧
    (∀ row ∈ commandRows, row.code ≠ (0x04 : Byte).toNat) ∧ requestRow (.tip .a [0]) = some (.a, 0x30, [0]) ∧
    (let row : CommandRow := ⟨0x30, [.b], some 1⟩
     row ∈ commandRows ∧ row.code = (0x30 : Byte).toNat ∧ Port.a ∉ row.ports ∧ Port.b ∈ row.ports ∧
       row.length = some 1 ∧ ([] : List Byte).length ≠ 1) ∧
    (after (.unknownCommand .a 0x04 []) (ready 610)).responseOn .a = some ⟨0x04, ⟨.unknownCommand, []⟩⟩ ∧
    0x10 ≤ Status.unknownCommand.code ∧ commandRows.map (·.code) = (commandRows.map (·.code)).eraseDups := by
  decide +kernel

theorem witness_IdentifyAndReadStatus : (ready 610).nrstAsserted = false := rfl

theorem witness_ReadChannelMachineAndStock :
    (ready 610).nrstAsserted = false ∧ (2 : Byte).toNat = channelNumber .m ∧ (3 : Byte).toNat = 3 ∧
    2 < (3 : Byte).toNat ∧ 3 < (4 : Byte).toNat := by decide

theorem witness_ImagesAndChunks :
    let s := chamberState (bale 57 .forming)
    let img : Image := ⟨List.replicate 90 7, 0⟩
    s.nrstAsserted = false ∧ 1 < (2 : Byte).toNat ∧ s.recordOf ((0 : Byte).toNat * 256 + (9 : Byte).toNat) = none ∧
    s.recordOf ((0 : Byte).toNat * 256 + (57 : Byte).toNat) = some (bale 57 .forming) ∧
    2 < (0 : Byte).toNat * 256 + (3 : Byte).toNat ∧
    (0 : Byte).toNat * 256 + (2 : Byte).toNat = Zone.table.number.val ∧ (ready 610).recordIn .table = none ∧
    s.recordIn .table = some (bale 5 .wrapped) ∧ 7 < (8 : Byte).toNat ∧ (7 : Byte).toNat ≤ 7 ∧
    (s.rs.slots[7]?).isSome = true ∧ s.rq.queue = [] ∧ fullQueue.queue.length = 16 ∧ s.imageOf .a = none ∧
    ((1 : Byte).toNat = img.lastChunk + 1 ∧ 47 * (1 : Byte).toNat < img.bytes.length) ∧
    ¬ (47 * (2 : Byte).toNat < img.bytes.length) := by decide +kernel

theorem witness_BaleImageLayout :
    (bale 57 .forming).wrap = none ∧ (wrappingBale 57 freshWrap).wrap = some freshWrap ∧ freshWrap.layers.length = 64 ∧
    (let w : WrapSection := { freshWrap with breaks := List.replicate 6 ⟨.two, 3, 100, 500⟩ }
     w.layers.length = 64 ∧ w.breaks[5]? = some ⟨.two, 3, 100, 500⟩) := by decide

theorem witness_WinnerIsTheGreatestBid :
    (ready 610).bidders .a = [] ∧ (noticeState.bidders .b).length = 2 ∧
    (∀ n ∈ noticeState.bidders .b, n.priority ≤ 255) := by decide

theorem witness_TakeNotice :
    (ready 610).nrstAsserted = false ∧
    (beforeTake .b 0x08 noticeState).winner .b = some ⟨.transfer, 0, 192, 82⟩ ∧
    (noticeState.na.get .b).plan.threshold < 192 ∧ (beforeTake .a 0x08 (ready 610)).winner .a = none := by decide

theorem witness_Acknowledge :
    noticeState.nrstAsserted = false ∧ (0 : Byte).toNat = 0 ∧ 15 < (16 : Byte).toNat ∧ 3 < (4 : Byte).toNat ∧
    (15 : Byte).toNat = Source.tableUnexpected.code ∧ (3 : Byte).toNat = (3 : Fin 4).val ∧
    (noticeState.na.get .b).current = none ∧
    ((after (.takeNotice .b []) noticeState).na.get .b).current = some ⟨.transfer, 0, 192, 82⟩ := by decide

/-- A payload of SET NOTICE PLAN with these marks and trigger byte. -/
def planPayload (m0 m1 m2 trigger : Byte) : List Byte := [m0, m1, m2] ++ List.replicate 18 0 ++ [trigger, 0]

theorem witness_SetNoticePlan :
    (ready 610).nrstAsserted = false ∧ (planPayload 0 0 0 0).length = 23 ∧
    ((planPayload 0x02 0 0 9).length = 23 ∧ ((planPayload 0x02 0 0 9).getD 0 0).getLsbD 1 = true ∧
      roundedUp [1, 4, 8, 12] 16 (nat1 (planPayload 0x02 0 0 9) 21) = 12) ∧
    ((planPayload 0x02 0 0 17).length = 23 ∧ roundedUp [1, 4, 8, 12] 16 (nat1 (planPayload 0x02 0 0 17) 21) = 16) ∧
    ((planPayload 0xF8 0x80 0x01 0).length = 23 ∧
      (nat1 (planPayload 0xF8 0x80 0x01 0) 0 * 65536 + nat2 (planPayload 0xF8 0x80 0x01 0) 1).testBit 15 = true) := by
  decide

theorem witness_ReadLinkStats :
    (ready 610).nrstAsserted = false ∧ 1 < (2 : Byte).toNat ∧ (1 : Byte).toNat ≤ 1 ∧ Port.b = linePort .b := by decide

theorem witness_PortReset : (ready 610).nrstAsserted = false ∧ Port.b = linePort .b := ⟨rfl, rfl⟩

theorem witness_ZeroCommands :
    let c : ChannelRecord := powerOnChannel 20
    (ready 610).nrstAsserted = false ∧ 2 < (3 : Byte).toNat ∧ (2 : Byte).toNat = channelNumber .m ∧
    { c with zeroing := true }.zeroing = true ∧ { c with debt := -8 }.debt = -8 ∧ -8 < { c with debt := -7 }.debt := by decide

theorem witness_OpenBaleAndDumpPrechamber :
    (ready 610).nrstAsserted = false ∧ (ready 610).rs.slots.length = 8 ∧ 7 < (8 : Byte).toNat ∧
    ((ready 610).rs.slots[0]?).map RecipeSlot.valid = some true ∧ ((ready 610).rs.slots[7]?).map RecipeSlot.valid = some false ∧
    State.reset.mi.stop.filtered = true ∧ (ready 610).mi.stop.filtered = false ∧ (ready 610).recordIn .pre = none ∧
    (openedBale (ready 610) 0 defaultRecipe).stage = .forming ∧
    (openedBale { ready 610 with mi := State.reset.mi } 0 defaultRecipe).stage = .gathering ∧ DriveInv (ready 610) ∧
    (let s := live 610 0 [bale 5 .wrapped, bale 6 .gathering]
     s.HoldsIn .pre [bale 5 .wrapped] (bale 6 .gathering) [] ∧ s.recordIn .chamber = none ∧
       s.mi.tailgate.filtered = true ∧ s.mi.stop.filtered = false) ∧
    ((chamberState (bale 57 .forming)).recordIn .chamber).isSome = true := by
  refine ⟨rfl, rfl, by decide, rfl, rfl, rfl, rfl, rfl, rfl, rfl, ?_, ⟨⟨rfl, rfl, by decide⟩, rfl, rfl, rfl⟩, rfl⟩
  unfold DriveInv; decide

theorem witness_DiscardBale :
    let s := chamberState (bale 57 .netted)
    s.nrstAsserted = false ∧ Port.a ≠ .c ∧ ZonesFall s ∧ s.recordOf ((0 : Byte).toNat * 256 + (9 : Byte).toNat) = none ∧
    s.recordOf ((0 : Byte).toNat * 256 + (5 : Byte).toNat) = some (bale 5 .wrapped) ∧
    s.recordOf ((0 : Byte).toNat * 256 + (57 : Byte).toNat) = some (bale 57 .netted) ∧
    s.recordOf ((0 : Byte).toNat * 256 + (58 : Byte).toNat) = some (bale 58 .gathering) ∧
    (4 < Stage.wrapping.code ∧ Stage.ejecting.code ≤ 4 ∧ Stage.netted.code < 4 ∧ 4 ≤ Stage.ejecting.code) ∧
    s.hu.ejectSlot = none ∧
    (let g := { tableState (bale 70 .wrapped) with hu := ⟨some 70, some 71, false, .stopped⟩ }
     ZonesFall g ∧ g.recordOf ((0 : Byte).toNat * 256 + (70 : Byte).toNat) = some (bale 70 .wrapped) ∧
       g.bt.bales = bale 70 .wrapped :: nettedBale 71 .netted 101500 :: [] ∧ g.hu.ejectSlot = some 71 ∧
       g.hu.tableHold = false ∧ g.mi.stop.filtered = false) ∧
    (let g := { tableState (bale 70 .ejecting) with hu := ⟨some 70, some 71, false, .running 10000⟩ }
     g.recordOf ((0 : Byte).toNat * 256 + (70 : Byte).toNat) = some (bale 70 .ejecting) ∧ g.hu.ejectSlot = some 71) := by
  refine ⟨rfl, by decide, ?_, by decide, by decide, by decide, by decide, by decide, rfl,
    ⟨?_, by decide, rfl, rfl, rfl, rfl⟩, by decide, rfl⟩ <;> (unfold ZonesFall; decide)

theorem witness_NetStartAndAbort :
    let b := bale 57 .forming
    let n := nettedBale 57 .netting 500
    (chamberState b).nrstAsserted = false ∧ (chamberState b).HoldsIn .chamber [bale 5 .wrapped] b [bale 58 .gathering] ∧
    (chamberState b).mi.stop.filtered = false ∧
    { chamberState b with mi := State.reset.mi }.mi.stop.filtered = true ∧
    (chamberState n).HoldsIn .chamber [bale 5 .wrapped] n [bale 58 .gathering] ∧ n.stage = .netting ∧
    n.net = some ⟨1250, 39270, 101175, 500⟩ ∧ (ready 610).recordIn .chamber = none :=
  ⟨rfl, holds_chamber _ rfl, rfl, rfl, holds_chamber _ rfl, rfl, rfl, rfl⟩

theorem witness_RequestEject :
    let b := nettedBale 57 .netted 101500
    let s := { chamberState b with hu := idleHandover }
    s.nrstAsserted = false ∧ ZonesFall s ∧ s.recordOf ((0 : Byte).toNat * 256 + (9 : Byte).toNat) = none ∧
    s.recordOf ((0 : Byte).toNat * 256 + (58 : Byte).toNat) = some (bale 58 .gathering) ∧
    s.recordOf ((0 : Byte).toNat * 256 + (57 : Byte).toNat) = some b ∧
    s.bt.bales = [bale 5 .wrapped] ++ b :: [bale 58 .gathering] ∧
    (s.hu.reservation = none ∧ s.hu.tableHold = false ∧ s.mi.stop.filtered = false) ∧
    (chamberState b).hu.reservation = some 5 := by
  refine ⟨rfl, ?_, by decide, by decide, by decide, rfl, ⟨rfl, rfl, rfl⟩, rfl⟩
  unfold ZonesFall; decide

theorem witness_CancelHoldAndFree :
    waitingState.nrstAsserted = false ∧ ZonesFall waitingState ∧
    waitingState.recordOf ((0 : Byte).toNat * 256 + (9 : Byte).toNat) = none ∧
    waitingState.recordOf ((0 : Byte).toNat * 256 + (72 : Byte).toNat) = some (bale 72 .gathering) ∧
    waitingState.recordOf ((0 : Byte).toNat * 256 + (71 : Byte).toNat) =
      some { nettedBale 71 .netted 101500 with ejectRequested := true } ∧
    waitingState.hu.ejectSlot = some 71 ∧ (ready 610).hu.ejectSlot = none ∧ ¬ (ready 610).WaitingRequest := by
  refine ⟨rfl, falls_waiting, by decide, by decide, by decide, rfl, rfl, ?_⟩
  rintro ⟨b, hb, -⟩
  exact nomatch hb

theorem witness_TipAndAbandonWrap :
    wrapState.nrstAsserted = false ∧ DriveInv wrapState ∧ ZonesFall wrapState ∧ 1 < (2 : Byte).toNat ∧ (1 : Byte).toNat = 1 ∧
    wrapState.HoldsIn .table [] (wrappingBale 120 freshWrap) [] ∧ wrapState.mi.stop.filtered = false ∧
    (0 ∈ freshWrap.layers ∧ ∀ n ∈ freshWrap.layers, 0 ≤ n) ∧
    (tableState (bale 70 .wrapped)).HoldsIn .table [] (bale 70 .wrapped) [nettedBale 71 .netted 101500] ∧
    { wrapState with mi := State.reset.mi }.mi.stop.filtered = true ∧ (ready 610).recordIn .table = none :=
  ⟨rfl, drive_wrap, falls_wrap, by decide, rfl, holds_wrap, rfl, by decide, holds_table _ rfl, rfl, rfl⟩

theorem witness_DispensersAndRolls :
    (ready 610).nrstAsserted = false ∧ ((0 : Byte).toNat ≠ 1 ∧ (0 : Byte).toNat ≠ 2) ∧ (3 : Byte).toNat ≠ 2 ∧
    2 < (3 : Byte).toNat ∧ (1 : Byte).toNat = dispenserNumber .one ∧ (2 : Byte).toNat = dispenserNumber .two ∧
    (running 5 0 0).state = .running ∧
    (let e : DispenserRecord := ⟨.out, 0, 0, 0, true⟩
     e.state = .out ∧ e.known = true ∧ e.stock = 0) ∧
    (powerOnDispenser.state = .out ∧ powerOnDispenser.known = false) ∧
    (0 : Byte).toNat * 16777216 + (0 : Byte).toNat * 65536 + (0 : Byte).toNat * 256 + (1 : Byte).toNat ≠ 0 := by decide

theorem witness_LoadRecipe :
    (ready 610).nrstAsserted = false ∧ (firstLoad.set 0 8).length = 28 ∧ 7 < nat1 (firstLoad.set 0 8) 0 ∧
    nat1 (firstLoad.set 0 7) 0 ≤ 7 ∧ ((ready 610).rs.slots[nat1 (firstLoad.set 0 7) 0]?).isSome = true := by decide

theorem witness_SetMachine :
    let eleven (g a : Byte) : List Byte := g :: 0 :: a :: List.replicate 8 0
    (ready 610).nrstAsserted = false ∧ 3 < nat1 (eleven 4 0) 0 ∧
    (nat1 (eleven 3 0) 0 ≤ 3 ∧ (eleven 3 0).length ≠ 31) ∧ (chamberState (bale 57 .forming)).bt.bales ≠ [] ∧
    (ready 610).bt.bales = [] ∧ (eleven 2 0).length = 11 ∧ nat1 (eleven 2 0) 0 = channelNumber .m ∧
    ((nat2 (eleven 2 2) 1).testBit 1 = true ∧ rawOf (eleven 2 2) 3 = rawOf (eleven 2 2) 7) ∧
    (nat2 (eleven 2 1) 1).testBit 1 = false ∧ nat1 (3 :: List.replicate 30 0) 0 = 3 ∧
    (3 :: List.replicate 30 (0 : Byte)).length = 31 ∧
    ((nat2 (eleven 2 0xFC) 1).testBit 2 = true ∧ (nat2 (eleven 2 0xFC) 1).testBit 1 = false) ∧
    (nat2 (3 :: 0xE0 :: List.replicate 29 0) 1).testBit 15 = true := by decide

theorem witness_ReleaseReportAndQueueStatus :
    (ready 610).nrstAsserted = false ∧ (ready 610).rq.queue = [] ∧
    fullQueue.queue.head?.map Bale.seq = some ((0 : Byte).toNat * 256 + (124 : Byte).toNat) ∧
    fullQueue.queue.head?.map Bale.seq ≠ some ((0 : Byte).toNat * 256 + (125 : Byte).toNat) ∧
    1 < (2 : Byte).toNat ∧ (1 : Byte).toNat ≤ 1 := by decide +kernel

/-- The waiting state with a command in its queue. -/
def waitingStep : State := { waitingState with pending := [.freeTable .b []] }

/-- The wrap's state with a pulse in its queue. -/
def wrapStep : State := { wrapState with pending := [.tablePulse] }

theorem steps_waiting : ∃ t, step waitingStep = .next t := ⟨_, rfl⟩

theorem steps_wrap : ∃ t, step wrapStep = .next t := ⟨_, rfl⟩

theorem handover_waiting : HandoverInv waitingStep :=
  ⟨falls_waiting, by decide, by decide, fun q hq => ⟨_, rfl, by cases hq; rfl, rfl, rfl⟩, by decide⟩

theorem recipe_wrap : RecipeInv wrapStep := by
  have legal : defaultRecipe.Legal := by unfold Recipe.Legal; decide
  refine ⟨rfl, ?_, ?_, by unfold Constants.Legal; decide, ?_, by decide⟩
  · intro x hx
    have : x = ⟨true, defaultRecipe⟩ ∨ x = ⟨false, defaultRecipe⟩ := by
      simpa [wrapStep, wrapState, wrappingState, live, ready, State.reset, defaultStore, defaultSlots] using hx
    rcases this with rfl | rfl <;> exact legal
  · intro b hb
    have : b = wrappingBale 120 freshWrap := by simpa [wrapStep, wrapState, wrappingState, live] using hb
    subst this; exact legal
  · intro ch; cases ch <;> (unfold ChannelConstants.Legal; decide)

theorem witness_AttentionIsKept :
    AttentionInv { waitingStep with na := defaultArbiters false } ∧
    ∃ t, step { waitingStep with na := defaultArbiters false } = .next t := by
  refine ⟨fun p => ?_, _, rfl⟩
  have : ({ waitingStep with na := defaultArbiters false } : State).bidders p = [] := by cases p <;> decide
  rw [this]
  cases p <;> simp [defaultArbiters, defaultArbiter, PerPort.get]

theorem witness_DebtsStayInRange : DebtInv wrapStep ∧ ∃ t, step wrapStep = .next t := by
  refine ⟨fun ch => ?_, steps_wrap⟩
  cases ch <;> (unfold ChannelRecord.DebtInv; decide)

theorem witness_DriveStaysSafe : DriveInv wrapStep ∧ ∃ t, step wrapStep = .next t :=
  ⟨by unfold DriveInv; decide, steps_wrap⟩

theorem witness_HandoverStaysSound : HandoverInv waitingStep ∧ ∃ t, step waitingStep = .next t :=
  ⟨handover_waiting, steps_waiting⟩

theorem witness_TimersAndSequenceNumbers :
    HandoverInv waitingStep ∧ TimerInv waitingStep ∧ SeqInv waitingStep ∧ ∃ t, step waitingStep = .next t := by
  refine ⟨handover_waiting, ⟨fun h => absurd rfl h, fun h => absurd rfl h, by decide, by decide⟩,
    by unfold SeqInv; decide, steps_waiting⟩

theorem witness_StocksAndReportsStaySound : StockInv wrapStep ∧ QueueInv wrapStep ∧ ∃ t, step wrapStep = .next t := by
  refine ⟨⟨by decide, fun k => ?_⟩, by unfold QueueInv; decide, steps_wrap⟩
  cases k <;> exact ⟨⟨by decide, by decide⟩, by decide⟩

theorem witness_RecipesAndConstantsStayLegal : RecipeInv wrapStep ∧ ∃ t, step wrapStep = .next t :=
  ⟨recipe_wrap, steps_wrap⟩

theorem handover_wrap : HandoverInv wrapStep :=
  ⟨falls_wrap, by decide, by decide, fun _ hq => (by cases hq), by decide⟩

theorem witness_WrapSectionsStayInRange :
    RecipeInv wrapStep ∧ HandoverInv wrapStep ∧ WrapInv wrapStep ∧ ∃ t, step wrapStep = .next t := by
  refine ⟨recipe_wrap, handover_wrap, fun b hb => ?_, steps_wrap⟩
  have : b = wrappingBale 120 freshWrap := by simpa [wrapStep, wrapState, wrappingState, live] using hb
  subst this
  refine ⟨fun w hw => ?_, fun n hn => ?_, by decide⟩
  · cases hw; unfold WrapSection.Legal; decide
  · cases hn; decide

end Sys2Proof.Tests
end

section
/-! Proofs. Facts about the shared operations that several statements need: closures by RESET (R26), the attention lines
(R171), what a grant waits for (R91, R93). -/

namespace Sys2Proof.Machine

/-! ### Closures by RESET (R26, R164) -/

/-- The closure of the oldest record by RESET: it leaves the list and is offered as a report. -/
theorem closeRecord_reset_head {s : State} {b : Bale} {rest : List Bale} (h : s.bt.bales = b :: rest) :
    (closeRecord b.stage.zone .reset s).bt = { s.bt with bales := rest } ∧
    (closeRecord b.stage.zone .reset s).rq = s.rq.offer (b.closedBy .reset s.bt.runClock) ∧
    OnlyChanges [.bt, .rq, .cu, .hu] s (closeRecord b.stage.zone .reset s) := by
  have hh : s.HoldsIn b.stage.zone [] b rest := ⟨h, rfl, by simp⟩
  rw [hh.closeRecord, if_pos rfl]
  cases b.stage.zone <;> refine ⟨rfl, rfl, fun k hk => ?_⟩ <;>
    (cases k with
      | arbiter p => exact ⟨rfl, rfl, rfl⟩
      | link p => cases p <;> rfl
      | _ => first | rfl | simp at hk)

/-- The closures of a list of records by RESET, oldest first. -/
theorem foldl_closeRecord_reset (bales : List Bale) (s : State) (h : s.bt.bales = bales) :
    (bales.foldl (fun t b => closeRecord b.stage.zone .reset t) s).bt = { s.bt with bales := [] } ∧
    OffersReach (bales.map (fun b => b.closedBy .reset s.bt.runClock)) s.rq
      (bales.foldl (fun t b => closeRecord b.stage.zone .reset t) s).rq ∧
    OnlyChanges [.bt, .rq, .cu, .hu] s (bales.foldl (fun t b => closeRecord b.stage.zone .reset t) s) := by
  induction bales generalizing s with
  | nil => exact ⟨congrArg (fun l => { s.bt with bales := l }) h, rfl, .refl _ _⟩
  | cons b rest ih =>
    obtain ⟨hbt, hrq, hframe⟩ := closeRecord_reset_head h
    obtain ⟨ihbt, ihrq, ihframe⟩ := ih (closeRecord b.stage.zone .reset s) (by rw [hbt])
    rw [hbt] at ihbt ihrq
    rw [hrq] at ihrq
    exact ⟨ihbt, ⟨_, s.rq.arrives _, ihrq⟩, hframe.trans ihframe⟩

theorem closeAll_reset (s : State) :
    (closeAll s).bt = { s.bt with bales := [] } ∧
    OffersReach (s.bt.bales.map (fun b => b.closedBy .reset s.bt.runClock)) s.rq (closeAll s).rq ∧
    OnlyChanges [.bt, .rq, .cu, .hu] s (closeAll s) :=
  foldl_closeRecord_reset s.bt.bales s rfl

/-! ### The attention lines (R170, R171) -/

theorem greatestBid_eq_none {l : List Notice} : greatestBid l = none ↔ l = [] := by
  cases l with
  | nil => simp [greatestBid]
  | cons n ns =>
    rw [greatestBid]
    cases greatestBid ns <;> simp
    split <;> simp

/-- The greatest bid is one of the bids, and none exceeds it. -/
theorem greatestBid_spec {l : List Notice} {m : Notice} (h : greatestBid l = some m) :
    m ∈ l ∧ ∀ n ∈ l, n.bid ≤ m.bid := by
  induction l generalizing m with
  | nil => cases h
  | cons n ns ih =>
    rw [greatestBid] at h
    cases hb : greatestBid ns with
    | none =>
      rw [hb] at h
      cases h
      simp [greatestBid_eq_none.mp hb]
    | some k =>
      obtain ⟨hk, hmax⟩ := ih hb
      rw [hb] at h
      dsimp only at h
      split at h <;> cases h
      · exact ⟨by simp [hk], by simpa using ⟨by omega, hmax⟩⟩
      · refine ⟨by simp, fun x hx => ?_⟩
        rcases List.mem_cons.mp hx with rfl | hx
        · exact le_refl _
        · have := hmax x hx
          omega

/-- A bid orders by priority first: source code and place together stay below 64 (R170). -/
theorem Notice.priority_le_of_bid_le {n m : Notice} (h : n.bid ≤ m.bid) : n.priority ≤ m.priority := by
  have hcode : m.source.code ≤ 15 := by cases m.source <;> decide
  have hinst := m.inst.isLt
  unfold Notice.bid at h
  omega

/-- A line is asserted exactly if a bidding notice has a priority above the threshold (R171). -/
theorem State.raised_iff (s : State) (p : Port) : s.raised p = true ↔
    s.nrstAsserted = false ∧ ∃ n ∈ s.bidders p, (s.na.get p).plan.threshold < n.priority := by
  rw [State.raised, Bool.and_eq_true, Bool.not_eq_true', Option.isSome_iff_exists]
  refine and_congr_right fun _ => ?_
  simp only [State.offered, Option.filter_eq_some_iff, decide_eq_true_eq]
  constructor
  · rintro ⟨m, hm, hlt⟩
    exact ⟨m, (greatestBid_spec hm).1, hlt⟩
  · rintro ⟨n, hn, hlt⟩
    cases hm : s.winner p with
    | none => rw [greatestBid_eq_none.mp hm] at hn; cases hn
    | some m =>
      have := Notice.priority_le_of_bid_le ((greatestBid_spec hm).2 n hn)
      exact ⟨m, rfl, by omega⟩

@[simp] theorem refreshAttention_bidders (s : State) (p : Port) : (refreshAttention s).bidders p = s.bidders p := by
  cases p <;> rfl

theorem refreshAttention_attention (s : State) (p : Port) :
    ((refreshAttention s).na.get p).attention = s.raised p := by cases p <;> rfl

@[simp] theorem refreshAttention_plan (s : State) (p : Port) :
    ((refreshAttention s).na.get p).plan = (s.na.get p).plan := by cases p <;> rfl

/-- Brought into line, the attention lines follow R171. -/
theorem refreshAttention_lineFollows {s : State} (hn : s.nrstAsserted = false) (p : Port) :
    (refreshAttention s).LineFollows p := by
  rw [State.LineFollows, refreshAttention_attention, refreshAttention_bidders, refreshAttention_plan, State.raised_iff]
  simp [hn]

/-! ### What a grant waits for (R91, R93) -/

/-- What HU needs to grant the waiting request (R93). -/
theorem State.grantable_iff (s : State) : s.grantable = true ↔
    s.WaitingRequest ∧ s.hu.reservation = none ∧ s.hu.tableHold = false ∧ s.mi.stop.filtered = false := by
  unfold State.grantable State.WaitingRequest
  cases hq : s.hu.ejectSlot with
  | none => simp
  | some q =>
    cases hb : s.recordIn .chamber with
    | none => simp
    | some b => simp [and_assoc, and_left_comm, eq_comm (a := q)]

theorem evalGrant_of {s : State} (hw : s.WaitingRequest) (hr : s.hu.reservation = none) (hh : s.hu.tableHold = false)
    (hs : s.mi.stop.filtered = false) : evalGrant s = grantEject true s := by
  rw [evalGrant, if_pos (s.grantable_iff.mpr ⟨hw, hr, hh, hs⟩)]

theorem evalGrant_of_not {s : State}
    (h : ¬ (s.WaitingRequest ∧ s.hu.reservation = none ∧ s.hu.tableHold = false ∧ s.mi.stop.filtered = false)) :
    evalGrant s = s := by
  rw [← s.grantable_iff] at h
  rw [evalGrant, if_neg h]

theorem State.obstacles_eq_zero (s : State) : s.obstacles = 0 ↔
    s.hu.reservation = none ∧ s.hu.tableHold = false ∧ s.mi.stop.filtered = false := by
  unfold State.obstacles
  cases s.hu.reservation <;> cases s.hu.tableHold <;> cases s.mi.stop.filtered <;> simp [marks]

/-- A waiting request reads the records, the slot and nothing else. -/
theorem State.waitingRequest_congr {s t : State} (hr : t.recordIn .chamber = s.recordIn .chamber)
    (hs : t.hu.ejectSlot = s.hu.ejectSlot) : t.WaitingRequest ↔ s.WaitingRequest := by
  unfold State.WaitingRequest
  rw [hr, hs]

/-! ### Records in falling zones -/

/-- In falling zones a record is the one `recordIn` finds exactly if it is live and stands in the zone. -/
theorem ZonesFall.recordIn_iff {s : State} (hz : ZonesFall s) (z : Zone) (b : Bale) :
    s.recordIn z = some b ↔ b ∈ s.bt.bales ∧ b.stage.zone = z := by
  constructor
  · exact fun h => ⟨State.recordIn_mem h, State.recordIn_zone h⟩
  · rintro ⟨hb, rfl⟩
    obtain ⟨older, younger, hl⟩ := List.append_of_mem hb
    exact (hz.holdsIn hl).recordIn

end Sys2Proof.Machine
end

section
/-! Proofs. The ledger: what the invariants of the bale table read of the state (R8, R9, R11, R81, R88, R89, R96), and the
moves by which a step can change it. Each invariant is shown once for each move. -/

namespace Sys2Proof.Machine

/-! ### The ledger -/

/-- What the ledger keeps of a record: its number, its stage and its request mark. -/
structure Tag where
  seq : Nat
  stage : Stage
  requested : Bool

/-- The record's entry in the ledger. -/
def Bale.tag (b : Bale) : Tag := ⟨b.seq, b.stage, b.ejectRequested⟩

/-- What the invariants of the bale table, of HU and of the STOP-suspended timers read of a state. -/
structure Ledger where
  tags : List Tag
  counter : Nat
  reservation : Option Nat
  slot : Option Nat
  catchTimer : Timer
  transferTimer : Timer
  stop : Bool
  reset : Bool

/-- The ledger of a state. -/
def State.ledger (s : State) : Ledger :=
  { tags := s.bt.bales.map Bale.tag, counter := s.bt.seqCounter, reservation := s.hu.reservation,
    slot := s.hu.ejectSlot, catchTimer := s.cu.netCatchTimer, transferTimer := s.hu.transferTimer,
    stop := s.mi.stop.filtered, reset := s.nrstAsserted }

/-! ### The invariants on the ledger -/

/-- Tags in strictly falling zones (R8, R9). -/
def FallingTags (tags : List Tag) : Prop :=
  tags.Pairwise (fun x y => y.stage.zone.number < x.stage.zone.number)

/-- `HandoverInv` as the ledger shows it: in falling zones the record of a zone is some record of the zone. -/
structure Ledger.Handover (l : Ledger) : Prop where
  falling : FallingTags l.tags
  quiet : l.reset = true → l.tags = []
  reserved : ∀ q, l.reservation = some q ↔ ∃ x ∈ l.tags, x.stage.zone = .table ∧ x.seq = q
  waiting : ∀ q, l.slot = some q ↔ ∃ x ∈ l.tags, x.stage = .netted ∧ x.requested = true ∧ x.seq = q
  marked : ∀ x ∈ l.tags, x.requested = true → x.stage = .netted

/-- `TimerInv` as the ledger shows it. -/
structure Ledger.Timed (l : Ledger) : Prop where
  catching : l.catchTimer ≠ .stopped → ∃ x ∈ l.tags, x.stage = .netting
  transferring : l.transferTimer ≠ .stopped → ∃ x ∈ l.tags, x.stage = .ejecting
  going : l.catchTimer.isRunning = true ∨ l.transferTimer.isRunning = true → l.stop = false
  halted : l.catchTimer = .suspended ∨ l.transferTimer = .suspended → l.stop = true

/-- `SeqInv` as the ledger shows it. -/
structure Ledger.Numbered (l : Ledger) : Prop where
  distinct : (l.tags.map Tag.seq).Nodup
  fresh : l.counter ∉ l.tags.map Tag.seq
  counterRange : 1 ≤ l.counter ∧ l.counter ≤ 65535
  seqRange : ∀ q ∈ l.tags.map Tag.seq, 1 ≤ q ∧ q ≤ 65535

theorem zonesFall_iff (s : State) : ZonesFall s ↔ FallingTags s.ledger.tags := by
  simp [ZonesFall, FallingTags, State.ledger, List.pairwise_map, Bale.tag]

theorem handoverInv_iff (s : State) : HandoverInv s ↔ s.ledger.Handover := by
  by_cases hz : ZonesFall s
  swap
  · exact ⟨fun h => absurd h.1 hz, fun h => absurd ((zonesFall_iff s).mpr h.falling) hz⟩
  have hreserved : s.hu.reservation = (s.recordIn .table).map Bale.seq ↔
      ∀ q, s.hu.reservation = some q ↔ ∃ b ∈ s.bt.bales, b.stage.zone = .table ∧ b.seq = q := by
    rw [Option.ext_iff]
    simp [hz.recordIn_iff, and_assoc]
  have netted_chamber : ∀ b : Bale, b.stage = .netted → b.stage.zone = .chamber := fun b h => by rw [h]; rfl
  constructor
  · rintro ⟨-, hquiet, hres, hslot, hmark⟩
    refine ⟨(zonesFall_iff s).mp hz, by simpa [State.ledger] using hquiet, ?_, fun q => ⟨?_, ?_⟩, ?_⟩
    · simpa [State.ledger, Bale.tag] using hreserved.mp hres
    · intro hq
      obtain ⟨b, hb, hseq, hst, hreq⟩ := hslot q hq
      exact ⟨b.tag, List.mem_map_of_mem (State.recordIn_mem hb), hst, hreq, hseq⟩
    · rintro ⟨x, hx, -, hreq, rfl⟩
      obtain ⟨b, hb, rfl⟩ := List.mem_map.mp hx
      exact (hmark b hb hreq).2
    · intro x hx hreq
      obtain ⟨b, hb, rfl⟩ := List.mem_map.mp hx
      exact (hmark b hb hreq).1
  · rintro ⟨-, hquiet, hres, hslot, hmark⟩
    refine ⟨hz, by simpa [State.ledger] using hquiet, ?_, fun q hq => ?_, fun b hb hreq => ?_⟩
    · exact hreserved.mpr (by simpa [State.ledger, Bale.tag] using hres)
    · obtain ⟨x, hx, hst, hreq, hseq⟩ := (hslot q).mp hq
      obtain ⟨b, hb, rfl⟩ := List.mem_map.mp hx
      exact ⟨b, (hz.recordIn_iff _ b).mpr ⟨hb, netted_chamber b hst⟩, hseq, hst, hreq⟩
    · have hst := hmark b.tag (List.mem_map_of_mem hb) hreq
      exact ⟨hst, (hslot b.seq).mpr ⟨b.tag, List.mem_map_of_mem hb, hst, hreq, rfl⟩⟩

theorem timerInv_iff {s : State} (hz : ZonesFall s) : TimerInv s ↔ s.ledger.Timed := by
  have hstage : ∀ st, (∃ b, s.recordIn st.zone = some b ∧ b.stage = st) ↔ ∃ x ∈ s.ledger.tags, x.stage = st := by
    intro st
    simp only [hz.recordIn_iff, State.ledger, List.mem_map, exists_exists_and_eq_and, Bale.tag]
    exact ⟨fun ⟨b, hb, h⟩ => ⟨b, hb.1, h⟩, fun ⟨b, hb, h⟩ => ⟨b, ⟨hb, by rw [h]⟩, h⟩⟩
  have hcatch := hstage .netting
  have htransfer := hstage .ejecting
  simp only [Stage.zone] at hcatch htransfer
  rw [TimerInv, hcatch, htransfer]
  exact ⟨fun ⟨h1, h2, h3, h4⟩ => ⟨h1, h2, h3, h4⟩, fun ⟨h1, h2, h3, h4⟩ => ⟨h1, h2, h3, h4⟩⟩

theorem seqInv_iff (s : State) : SeqInv s ↔ s.ledger.Numbered := by
  have hseqs : s.ledger.tags.map Tag.seq = s.bt.bales.map Bale.seq := by
    simp [State.ledger, Bale.tag]
  constructor
  · rintro ⟨h1, h2, h3, h4⟩
    exact ⟨by rwa [hseqs], by rwa [hseqs], h3, by rw [hseqs]; simpa using h4⟩
  · rintro ⟨h1, h2, h3, h4⟩
    rw [hseqs] at h1 h2 h4
    exact ⟨h1, h2, h3, by simpa using h4⟩

/-! ### The moves -/

/-- Everything a step can do to the ledger, one move at a time. -/
inductive Ledger.Move (l : Ledger) : Ledger → Prop
  /-- A stage change of a record that is not NETTED, its own timer stopped: within its zone, or into an empty chamber. -/
  | restage {older younger : List Tag} {x : Tag} (st : Stage) (hl : l.tags = older ++ x :: younger)
      (hx : x.stage ≠ .netted)
      (hz : st.zone = x.stage.zone ∨
        x.stage.zone = .pre ∧ st.zone = .chamber ∧ ∀ y ∈ l.tags, y.stage.zone ≠ .chamber)
      (hcatch : x.stage = .netting → l.catchTimer = .stopped)
      (htransfer : x.stage = .ejecting → l.transferTimer = .stopped) :
      Move l { l with tags := older ++ { x with stage := st } :: younger }
  /-- The net-catch timer started for a NETTING record (R77). -/
  | startCatch (ms : Nat) (hx : ∃ x ∈ l.tags, x.stage = .netting) (hs : l.stop = false) :
      Move l { l with catchTimer := .running ms }
  /-- The grant of the NETTED record's eject, with no reservation held and no STOP (R92). -/
  | grant {older younger : List Tag} {x : Tag} (ms : Nat) (hl : l.tags = older ++ x :: younger)
      (hx : x.stage = .netted) (hr : l.reservation = none) (hs : l.stop = false) :
      Move l { l with
        tags := older ++ ⟨x.seq, .ejecting, false⟩ :: younger, reservation := some x.seq, slot := none
        transferTimer := .running ms }
  /-- A request of the NETTED record placed or withdrawn (R91, R94). -/
  | request {older younger : List Tag} {x : Tag} (placed : Bool) (hl : l.tags = older ++ x :: younger)
      (hx : x.stage = .netted) :
      Move l { l with
        tags := older ++ { x with requested := placed } :: younger
        slot := if placed then some x.seq else if l.slot = some x.seq then none else l.slot }
  /-- A new record at the tail, with the prechamber empty (R17). -/
  | create (st : Stage) (hn : l.reset = false) (hp : ∀ y ∈ l.tags, y.stage.zone ≠ .pre)
      (hst : st = .gathering ∨ st = .forming ∧ ∀ y ∈ l.tags, y.stage.zone ≠ .chamber) :
      Move l { l with
        tags := l.tags ++ [⟨l.counter, st, false⟩]
        counter := stepSeq (l.tags.length + 2) (l.tags.map Tag.seq ++ [l.counter]) l.counter }
  /-- A closure with what its zone's neighbours do (R24). -/
  | close {older younger : List Tag} {x : Tag} (hl : l.tags = older ++ x :: younger) :
      Move l { l with
        tags := older ++ younger
        reservation := if x.stage.zone = .table then none else l.reservation
        transferTimer := if x.stage.zone = .table then .stopped else l.transferTimer
        catchTimer := if x.stage.zone = .chamber then .stopped else l.catchTimer
        slot := if x.stage.zone = .chamber then if l.slot = some x.seq then none else l.slot else l.slot }
  /-- The net-catch timer stopped. -/
  | stopCatch : Move l { l with catchTimer := .stopped }
  /-- The transfer timer stopped. -/
  | stopTransfer : Move l { l with transferTimer := .stopped }
  /-- STOP rising (R81, R96). -/
  | stopRises : Move l { l with
      stop := true, catchTimer := l.catchTimer.suspend, transferTimer := l.transferTimer.suspend }
  /-- STOP falling (R81, R96). -/
  | stopFalls (netMs transferMs : Nat) : Move l { l with
      stop := false, catchTimer := l.catchTimer.resume netMs, transferTimer := l.transferTimer.resume transferMs }
  /-- While nRST is asserted, STOP's filtered level may change (R44) and nRST may be released (R202). -/
  | underReset (stop reset : Bool) (hn : l.reset = true) : Move l { l with stop := stop, reset := reset }
  /-- Power-on or the assertion of nRST (R26, R27). -/
  | clear (counter : Nat) (stop reset : Bool) (hc : counter = l.counter ∨ counter = 1) :
      Move l ⟨[], counter, none, none, .stopped, .stopped, stop, reset⟩

/-! ### Falling zones -/

theorem Zone.number_injective : Function.Injective Zone.number := by
  intro a b h
  cases a <;> cases b <;> first | rfl | exact absurd h (by decide)

/-- In falling zones a record's place in the list tells what the others' zones can be. -/
theorem FallingTags.split {older younger : List Tag} {x : Tag} (h : FallingTags (older ++ x :: younger)) :
    (∀ y ∈ older, x.stage.zone.number < y.stage.zone.number) ∧
      (∀ y ∈ younger, y.stage.zone.number < x.stage.zone.number) := by
  rw [FallingTags, List.pairwise_append, List.pairwise_cons] at h
  obtain ⟨-, ⟨hyounger, -⟩, holder⟩ := h
  exact ⟨fun y hy => holder y hy x (by simp), hyounger⟩

/-- The other records stand in other zones. -/
theorem FallingTags.alone {older younger : List Tag} {x y : Tag} (h : FallingTags (older ++ x :: younger))
    (hy : y ∈ older ∨ y ∈ younger) : y.stage.zone ≠ x.stage.zone := by
  intro e
  obtain ⟨holder, hyounger⟩ := h.split
  rcases hy with hy | hy
  · exact absurd (holder y hy) (by simp [e])
  · exact absurd (hyounger y hy) (by simp [e])

theorem FallingTags.remove {older younger : List Tag} {x : Tag} (h : FallingTags (older ++ x :: younger)) :
    FallingTags (older ++ younger) :=
  List.Pairwise.sublist ((List.sublist_cons_self x younger).append_left older) h

/-- A record may be replaced by one whose zone still lies between its neighbours'. -/
theorem FallingTags.replace {older younger : List Tag} {x y : Tag} (h : FallingTags (older ++ x :: younger))
    (holder : ∀ z ∈ older, y.stage.zone.number < z.stage.zone.number)
    (hyounger : ∀ z ∈ younger, z.stage.zone.number < y.stage.zone.number) :
    FallingTags (older ++ y :: younger) := by
  have hrest := h.remove
  rw [FallingTags, List.pairwise_append] at hrest ⊢
  obtain ⟨h1, h2, h3⟩ := hrest
  refine ⟨h1, List.pairwise_cons.mpr ⟨hyounger, h2⟩, fun z hz w hw => ?_⟩
  rcases List.mem_cons.mp hw with rfl | hw
  · exact holder z hz
  · exact h3 z hz w hw

/-- A record may move to the next zone if no record stands there. -/
theorem FallingTags.advance {older younger : List Tag} {x y : Tag} (h : FallingTags (older ++ x :: younger))
    (hz : y.stage.zone = x.stage.zone ∨ y.stage.zone.number.val = x.stage.zone.number.val + 1 ∧
      ∀ z ∈ older ++ x :: younger, z.stage.zone ≠ y.stage.zone) : FallingTags (older ++ y :: younger) := by
  obtain ⟨holder, hyounger⟩ := h.split
  rcases hz with hz | ⟨hnext, hfree⟩
  · exact h.replace (by rwa [hz]) (by rwa [hz])
  · refine h.replace (fun z hm => ?_) (fun z hm => ?_)
    · have hne : z.stage.zone.number ≠ y.stage.zone.number := fun e => hfree z (by simp [hm]) (Zone.number_injective e)
      have := holder z hm
      omega
    · have := hyounger z hm
      omega

/-- A record below all others may join the tail. -/
theorem FallingTags.concat {tags : List Tag} {y : Tag} (h : FallingTags tags)
    (hy : ∀ x ∈ tags, y.stage.zone.number < x.stage.zone.number) : FallingTags (tags ++ [y]) := by
  rw [FallingTags, List.pairwise_append]
  exact ⟨h, List.pairwise_singleton _ _, fun x hx z hz => by rw [List.mem_singleton.mp hz]; exact hy x hx⟩

/-- There are three zones, so no more than three live records. -/
theorem FallingTags.length_le {tags : List Tag} (h : FallingTags tags) : tags.length ≤ 3 := by
  have hnodup : (tags.map (fun x => x.stage.zone)).Nodup := by
    rw [List.nodup_iff_pairwise_ne, List.pairwise_map]
    exact h.imp (fun hlt e => absurd hlt (by simp [e]))
  have hsub : (tags.map (fun x => x.stage.zone)) ⊆ [.pre, .chamber, .table] := fun z _ => by cases z <;> simp
  simpa using (List.subperm_of_subset hnodup hsub).length_le

end Sys2Proof.Machine
end

section
/-! Proofs. Every move keeps the ledger's invariants. -/

namespace Sys2Proof.Machine

/-! ### The handover (R8, R9, R88, R89) -/

theorem Stage.zone_netted {st : Stage} (h : st = .netted) : st.zone = .chamber := by rw [h]; rfl

/-- Without a reservation no record stands on the table. -/
theorem Ledger.Handover.table_free {l : Ledger} (h : l.Handover) (hr : l.reservation = none) :
    ∀ y ∈ l.tags, y.stage.zone ≠ .table := fun y hy hz => by
  have := (h.reserved y.seq).mpr ⟨y, hy, hz, rfl⟩
  rw [hr] at this
  cases this

/-- The invariant speaks of tags, reservation, slot and nRST alone. -/
theorem Ledger.Handover.congr {l m : Ledger} (h : l.Handover) (ht : m.tags = l.tags) (hr : m.reservation = l.reservation)
    (hs : m.slot = l.slot) (hn : m.reset = true → m.tags = []) : m.Handover :=
  ⟨by rw [ht]; exact h.falling, hn, by rw [ht, hr]; exact h.reserved, by rw [ht, hs]; exact h.waiting,
    by rw [ht]; exact h.marked⟩

theorem Ledger.Handover.restage {l : Ledger} (h : l.Handover) {older younger : List Tag} {x : Tag} (st : Stage)
    (hl : l.tags = older ++ x :: younger) (hx : x.stage ≠ .netted)
    (hz : st.zone = x.stage.zone ∨ x.stage.zone = .pre ∧ st.zone = .chamber ∧ ∀ y ∈ l.tags, y.stage.zone ≠ .chamber) :
    Ledger.Handover { l with tags := older ++ { x with stage := st } :: younger } := by
  have hreq : x.requested = false := by
    simpa using fun e => hx (h.marked x (by simp [hl]) e)
  have htable : st.zone = .table ↔ x.stage.zone = .table := by
    rcases hz with hz | ⟨h1, h2, -⟩
    · rw [hz]
    · simp [h1, h2]
  have hfall := h.falling
  rw [hl] at hfall
  refine ⟨hfall.advance ?_, fun hn => ?_, fun q => ?_, fun q => ?_, fun y hy => ?_⟩
  · rcases hz with hz | ⟨h1, h2, h3⟩
    · exact .inl hz
    · exact .inr ⟨by simp [h1, h2, Zone.number], fun y hy => by simpa [h2] using h3 y (hl ▸ hy)⟩
  · exact absurd (h.quiet hn) (by simp [hl])
  · simp [h.reserved, hl, or_and_right, exists_or, htable]
  · simp [h.waiting, hl, or_and_right, exists_or, hreq]
  · rcases List.mem_append.mp hy with hy | hy
    · exact h.marked y (by simp [hl, hy])
    · rcases List.mem_cons.mp hy with rfl | hy
      · simp [hreq]
      · exact h.marked y (by simp [hl, hy])

theorem Ledger.Handover.grant {l : Ledger} (h : l.Handover) {older younger : List Tag} {x : Tag} (ms : Nat)
    (hl : l.tags = older ++ x :: younger) (hx : x.stage = .netted) (hr : l.reservation = none) :
    Ledger.Handover { l with
      tags := older ++ ⟨x.seq, .ejecting, false⟩ :: younger, reservation := some x.seq, slot := none
      transferTimer := .running ms } := by
  have hfall := h.falling
  have hfree := h.table_free hr
  rw [hl] at hfall hfree
  have hnetted : ∀ y, y ∈ older ∨ y ∈ younger → y.requested = true → False := fun y hy hreq =>
    hfall.alone hy (by rw [hx, h.marked y (by rw [hl]; simpa [or_left_comm] using .inr hy) hreq])
  refine ⟨hfall.advance (.inr ⟨by simp [hx, Stage.zone, Zone.number], hfree⟩), fun hn => ?_, fun q => ?_, fun q => ?_,
    fun y hy => ?_⟩
  · exact absurd (h.quiet hn) (by simp [hl])
  · simp only [List.mem_append, List.mem_cons] at hfree
    simp only [List.mem_append, List.mem_cons, Option.some.injEq]
    constructor
    · rintro rfl
      exact ⟨_, .inr (.inl rfl), rfl, rfl⟩
    · rintro ⟨y, hy | rfl | hy, hz, rfl⟩
      · exact absurd hz (hfree y (.inl hy))
      · rfl
      · exact absurd hz (hfree y (.inr (.inr hy)))
  · simp only [List.mem_append, List.mem_cons, reduceCtorEq, false_iff]
    rintro ⟨y, hy | rfl | hy, hst, hreq, -⟩
    · exact hnetted y (.inl hy) hreq
    · cases hreq
    · exact hnetted y (.inr hy) hreq
  · intro hreq
    simp only [List.mem_append, List.mem_cons] at hy
    rcases hy with hy | rfl | hy
    · exact (hnetted y (.inl hy) hreq).elim
    · cases hreq
    · exact (hnetted y (.inr hy) hreq).elim

theorem Ledger.Handover.request {l : Ledger} (h : l.Handover) {older younger : List Tag} {x : Tag} (placed : Bool)
    (hl : l.tags = older ++ x :: younger) (hx : x.stage = .netted) :
    Ledger.Handover { l with
      tags := older ++ { x with requested := placed } :: younger
      slot := if placed then some x.seq else if l.slot = some x.seq then none else l.slot } := by
  have hfall := h.falling
  rw [hl] at hfall
  have hothers : ∀ y, y ∈ older ∨ y ∈ younger → y.stage ≠ .netted := fun y hy e =>
    hfall.alone hy (by rw [hx, e])
  have hslot : ∀ q, l.slot = some q → q = x.seq := fun q hq => by
    obtain ⟨y, hy, hst, -, rfl⟩ := (h.waiting q).mp hq
    simp only [hl, List.mem_append, List.mem_cons] at hy
    rcases hy with hy | rfl | hy
    · exact absurd hst (hothers y (.inl hy))
    · rfl
    · exact absurd hst (hothers y (.inr hy))
  have hslot' : (if placed then some x.seq else if l.slot = some x.seq then none else l.slot) =
      if placed then some x.seq else none := by
    cases hs : l.slot with
    | none => simp
    | some q => simp [hslot q hs]
  refine ⟨hfall.advance (.inl rfl), fun hn => ?_, fun q => ?_, fun q => ?_, fun y hy => ?_⟩
  · exact absurd (h.quiet hn) (by simp [hl])
  · simp [h.reserved, hl, or_and_right, exists_or]
  · simp only [hslot', List.mem_append, List.mem_cons]
    constructor
    · intro hq
      cases placed
      · cases hq
      · exact ⟨_, .inr (.inl rfl), hx, rfl, by simpa using hq⟩
    · rintro ⟨y, hy | rfl | hy, hst, hreq, rfl⟩
      · exact absurd hst (hothers y (.inl hy))
      · simp_all
      · exact absurd hst (hothers y (.inr hy))
  · simp only [List.mem_append, List.mem_cons] at hy
    rcases hy with hy | rfl | hy
    · exact h.marked y (by simp [hl, hy])
    · exact fun _ => hx
    · exact h.marked y (by simp [hl, hy])

theorem Ledger.Handover.create {l : Ledger} (h : l.Handover) (st : Stage) (counter : Nat) (hn : l.reset = false)
    (hp : ∀ y ∈ l.tags, y.stage.zone ≠ .pre)
    (hst : st = .gathering ∨ st = .forming ∧ ∀ y ∈ l.tags, y.stage.zone ≠ .chamber) :
    Ledger.Handover { l with tags := l.tags ++ [⟨l.counter, st, false⟩], counter := counter } := by
  have hbelow : ∀ y ∈ l.tags, st.zone.number < y.stage.zone.number := fun y hy => by
    have hpre := hp y hy
    rcases hst with rfl | ⟨rfl, hc⟩
    · revert hpre; cases y.stage.zone <;> simp [Stage.zone, Zone.number]
    · have hchamber := hc y hy
      revert hpre hchamber; cases y.stage.zone <;> simp [Stage.zone, Zone.number]
  have htable : st.zone ≠ .table := by rcases hst with rfl | ⟨rfl, -⟩ <;> simp [Stage.zone]
  refine ⟨h.falling.concat hbelow, fun e => absurd e (by simp [hn]), fun q => ?_, fun q => ?_, fun y hy => ?_⟩
  · simp [h.reserved, or_and_right, exists_or, htable]
  · simp [h.waiting, or_and_right, exists_or]
  · rcases List.mem_append.mp hy with hy | hy
    · exact h.marked y hy
    · simp [List.mem_singleton.mp hy]

theorem Ledger.Handover.close {l : Ledger} (h : l.Handover) {older younger : List Tag} {x : Tag}
    (hl : l.tags = older ++ x :: younger) (c t : Timer) :
    Ledger.Handover { l with
      tags := older ++ younger
      reservation := if x.stage.zone = .table then none else l.reservation
      transferTimer := t
      catchTimer := c
      slot := if x.stage.zone = .chamber then if l.slot = some x.seq then none else l.slot else l.slot } := by
  have hfall := h.falling
  rw [hl] at hfall
  have halone : ∀ y ∈ older ++ younger, y.stage.zone ≠ x.stage.zone := fun y hy =>
    hfall.alone (List.mem_append.mp hy)
  refine ⟨hfall.remove, fun hn => ?_, fun q => ?_, fun q => ?_, fun y hy => ?_⟩
  · exact absurd (h.quiet hn) (by simp [hl])
  · by_cases hz : x.stage.zone = .table
    · simp only [hz, if_true, reduceCtorEq, false_iff]
      rintro ⟨y, hy, hyz, -⟩
      exact halone y hy (by rw [hz, hyz])
    · simp [hz, h.reserved, hl, or_and_right, exists_or]
  · have hiff := h.waiting q
    by_cases hz : x.stage.zone = .chamber
    · have hnone : ¬ ∃ y ∈ older ++ younger, y.stage = .netted ∧ y.requested = true ∧ y.seq = q := by
        rintro ⟨y, hy, hst, -, -⟩
        exact halone y hy (by rw [hz, Stage.zone_netted hst])
      refine ⟨fun hq => ?_, fun e => absurd e hnone⟩
      have hne : l.slot ≠ some x.seq := fun e => by simp [hz, e] at hq
      have hq' : l.slot = some q := by simpa [hz, hne] using hq
      obtain ⟨y, hy, hst, hreq, rfl⟩ := hiff.mp hq'
      simp only [hl, List.mem_append, List.mem_cons] at hy
      rcases hy with hy | rfl | hy
      · exact absurd ⟨y, by simp [hy], hst, hreq, rfl⟩ hnone
      · exact absurd hq' hne
      · exact absurd ⟨y, by simp [hy], hst, hreq, rfl⟩ hnone
    · have hx : x.stage ≠ .netted := fun e => hz (Stage.zone_netted e)
      simp [hz, hiff, hl, or_and_right, exists_or, hx]
  · exact h.marked y (by simp only [hl, List.mem_append, List.mem_cons] at hy ⊢; tauto)

theorem Ledger.Move.handover {l m : Ledger} (hm : l.Move m) (h : l.Handover) : m.Handover := by
  cases hm with
  | restage st hl hx hz _ _ => exact h.restage st hl hx hz
  | startCatch => exact h.congr rfl rfl rfl h.quiet
  | grant ms hl hx hr _ => exact h.grant ms hl hx hr
  | request placed hl hx => exact h.request placed hl hx
  | create st hn hp hst => exact h.create st _ hn hp hst
  | close hl => exact h.close hl _ _
  | stopCatch => exact h.congr rfl rfl rfl h.quiet
  | stopTransfer => exact h.congr rfl rfl rfl h.quiet
  | stopRises => exact h.congr rfl rfl rfl h.quiet
  | stopFalls => exact h.congr rfl rfl rfl h.quiet
  | underReset _ _ hn => exact h.congr rfl rfl rfl (fun _ => h.quiet hn)
  | clear => exact ⟨List.Pairwise.nil, fun _ => rfl, by simp, by simp, by simp⟩

/-! ### The STOP-suspended timers (R81, R96) -/

theorem Timer.suspend_stopped {t : Timer} (h : t.suspend ≠ .stopped) : t ≠ .stopped := by
  rintro rfl; exact h rfl

theorem Timer.suspend_isRunning (t : Timer) : t.suspend.isRunning = false := by cases t <;> rfl

theorem Timer.resume_stopped {ms : Nat} {t : Timer} (h : t.resume ms ≠ .stopped) : t ≠ .stopped := by
  rintro rfl; exact h rfl

theorem Timer.resume_suspended (ms : Nat) (t : Timer) : t.resume ms ≠ .suspended := by cases t <;> simp [Timer.resume]

/-- Replacing a record keeps a record in a stage, unless it was the one replaced. -/
theorem exists_stage_replace {older younger : List Tag} {x y : Tag} {st : Stage}
    (h : ∃ z ∈ older ++ x :: younger, z.stage = st) (hxy : x.stage = st → y.stage = st) :
    ∃ z ∈ older ++ y :: younger, z.stage = st := by
  simp only [List.mem_append, List.mem_cons] at h ⊢
  obtain ⟨z, hz | rfl | hz, e⟩ := h
  · exact ⟨z, .inl hz, e⟩
  · exact ⟨y, .inr (.inl rfl), hxy e⟩
  · exact ⟨z, .inr (.inr hz), e⟩

/-- A closure keeps a record in a stage, unless it was the one closed. -/
theorem exists_stage_remove {older younger : List Tag} {x : Tag} {st : Stage}
    (h : ∃ z ∈ older ++ x :: younger, z.stage = st) (hx : x.stage ≠ st) : ∃ z ∈ older ++ younger, z.stage = st := by
  simp only [List.mem_append, List.mem_cons] at h ⊢
  obtain ⟨z, hz | rfl | hz, e⟩ := h
  · exact ⟨z, .inl hz, e⟩
  · exact absurd e hx
  · exact ⟨z, .inr hz, e⟩

theorem Ledger.Timed.restage {l : Ledger} (h : l.Timed) {older younger : List Tag} {x : Tag} (st : Stage)
    (hl : l.tags = older ++ x :: younger) (hcatch : x.stage = .netting → l.catchTimer = .stopped)
    (htransfer : x.stage = .ejecting → l.transferTimer = .stopped) :
    Ledger.Timed { l with tags := older ++ { x with stage := st } :: younger } :=
  ⟨fun e => exists_stage_replace (hl ▸ h.catching e) (fun hx => absurd (hcatch hx) e),
    fun e => exists_stage_replace (hl ▸ h.transferring e) (fun hx => absurd (htransfer hx) e), h.going, h.halted⟩

theorem Ledger.Timed.grant {l : Ledger} (h : l.Timed) {older younger : List Tag} {x : Tag} (ms : Nat)
    (hl : l.tags = older ++ x :: younger) (hx : x.stage = .netted) (hs : l.stop = false) :
    Ledger.Timed { l with
      tags := older ++ ⟨x.seq, .ejecting, false⟩ :: younger, reservation := some x.seq, slot := none
      transferTimer := .running ms } :=
  ⟨fun e => exists_stage_replace (hl ▸ h.catching e) (fun e => by simp [hx] at e),
    fun _ => ⟨⟨x.seq, .ejecting, false⟩, by simp, rfl⟩, fun _ => hs, fun e => h.halted (.inl (by simpa using e))⟩

/-- A closure stops the timer of its zone. -/
theorem Ledger.Timed.close {l : Ledger} (h : l.Timed) {older younger : List Tag} {x : Tag}
    (hl : l.tags = older ++ x :: younger) (reservation slot : Option Nat) :
    Ledger.Timed { l with
      tags := older ++ younger
      reservation := reservation
      transferTimer := if x.stage.zone = .table then .stopped else l.transferTimer
      catchTimer := if x.stage.zone = .chamber then .stopped else l.catchTimer
      slot := slot } := by
  have hkept : ∀ (z : Zone) (t : Timer), (if x.stage.zone = z then .stopped else t) ≠ .stopped →
      x.stage.zone ≠ z ∧ t ≠ .stopped := fun z t e => by
    by_cases hz : x.stage.zone = z <;> simp_all
  have hrun : ∀ (z : Zone) (t : Timer), (if x.stage.zone = z then .stopped else t).isRunning = true →
      t.isRunning = true := fun z t e => by
    by_cases hz : x.stage.zone = z <;> simp_all [Timer.isRunning]
  have hsus : ∀ (z : Zone) (t : Timer), (if x.stage.zone = z then Timer.stopped else t) = .suspended →
      t = .suspended := fun z t e => by
    by_cases hz : x.stage.zone = z <;> simp_all
  refine ⟨fun e => ?_, fun e => ?_, fun e => h.going (e.imp (hrun _ _) (hrun _ _)),
    fun e => h.halted (e.imp (hsus _ _) (hsus _ _))⟩
  · obtain ⟨hz, ht⟩ := hkept _ _ e
    exact exists_stage_remove (hl ▸ h.catching ht) (fun hx => hz (by rw [hx]; rfl))
  · obtain ⟨hz, ht⟩ := hkept _ _ e
    exact exists_stage_remove (hl ▸ h.transferring ht) (fun hx => hz (by rw [hx]; rfl))

/-- With no record live both timers are STOPPED, so they say nothing of STOP. -/
theorem Ledger.Timed.of_empty {l m : Ledger} (h : l.Timed) (ht : l.tags = []) (hc : m.catchTimer = l.catchTimer)
    (hx : m.transferTimer = l.transferTimer) : m.Timed := by
  have hcatch : m.catchTimer = .stopped := by
    rw [hc]; by_contra e; simpa [ht] using h.catching e
  have htransfer : m.transferTimer = .stopped := by
    rw [hx]; by_contra e; simpa [ht] using h.transferring e
  exact ⟨fun e => absurd hcatch e, fun e => absurd htransfer e, by simp [hcatch, htransfer, Timer.isRunning],
    by simp [hcatch, htransfer]⟩

theorem Ledger.Move.timed {l m : Ledger} (hm : l.Move m) (hh : l.Handover) (h : l.Timed) : m.Timed := by
  cases hm with
  | restage st hl hx hz hcatch htransfer => exact h.restage st hl hcatch htransfer
  | startCatch ms hx hs =>
    exact ⟨fun _ => hx, h.transferring, fun _ => hs, fun e => h.halted (.inr (by simpa using e))⟩
  | grant ms hl hx hr hs => exact h.grant ms hl hx hs
  | request placed hl hx =>
    have hcatching := h.catching
    have htransferring := h.transferring
    rw [hl] at hcatching htransferring
    exact ⟨fun e => exists_stage_replace (hcatching e) id, fun e => exists_stage_replace (htransferring e) id,
      h.going, h.halted⟩
  | create st hn hp hst =>
    have hmore : ∀ {st'}, (∃ x ∈ l.tags, x.stage = st') → ∃ x ∈ l.tags ++ [⟨l.counter, st, false⟩], x.stage = st' :=
      fun ⟨x, hx, e⟩ => ⟨x, by simp [hx], e⟩
    exact ⟨fun e => hmore (h.catching e), fun e => hmore (h.transferring e), h.going, h.halted⟩
  | close hl => exact h.close hl _ _
  | stopCatch =>
    exact ⟨fun e => absurd rfl e, h.transferring, fun e => h.going (.inr (by simpa [Timer.isRunning] using e)),
      fun e => h.halted (.inr (by simpa using e))⟩
  | stopTransfer =>
    exact ⟨h.catching, fun e => absurd rfl e, fun e => h.going (.inl (by simpa [Timer.isRunning] using e)),
      fun e => h.halted (.inl (by simpa using e))⟩
  | stopRises =>
    exact ⟨fun e => h.catching (Timer.suspend_stopped e), fun e => h.transferring (Timer.suspend_stopped e),
      fun e => by simp [Timer.suspend_isRunning] at e, fun _ => rfl⟩
  | stopFalls =>
    exact ⟨fun e => h.catching (Timer.resume_stopped e), fun e => h.transferring (Timer.resume_stopped e),
      fun _ => rfl, fun e => by simp [Timer.resume_suspended] at e⟩
  | underReset _ _ hn => exact h.of_empty (hh.quiet hn) rfl rfl
  | clear => exact ⟨fun e => absurd rfl e, fun e => absurd rfl e, by simp [Timer.isRunning], by simp⟩

/-! ### The sequence numbers (R11) -/

/-- The invariant speaks of the `seq` values and the counter alone. -/
theorem Ledger.Numbered.congr {l m : Ledger} (h : l.Numbered) (hs : m.tags.map Tag.seq = l.tags.map Tag.seq)
    (hc : m.counter = l.counter) : m.Numbered :=
  ⟨by rw [hs]; exact h.distinct, by rw [hs, hc]; exact h.fresh, by rw [hc]; exact h.counterRange,
    by rw [hs]; exact h.seqRange⟩

/-- The creation gives the counter's value away and finds a free one, the live records being three at most. -/
theorem Ledger.Numbered.create {l : Ledger} (h : l.Numbered) (st : Stage) (hlen : l.tags.length < 3) :
    Ledger.Numbered { l with
      tags := l.tags ++ [⟨l.counter, st, false⟩]
      counter := stepSeq (l.tags.length + 2) (l.tags.map Tag.seq ++ [l.counter]) l.counter } := by
  obtain ⟨hlo, hhi⟩ := h.counterRange
  have hfree := stepSeq_free (l.tags.map Tag.seq ++ [l.counter]) (by simpa using hlen) l.counter hlo hhi (by simp)
  refine ⟨?_, ?_, stepSeq_range _ _ _ hlo hhi, ?_⟩
  · simpa [List.nodup_append, h.distinct] using h.fresh
  · simpa using hfree
  · intro q hq
    simp only [List.map_append, List.map_cons, List.map_nil, List.mem_append, List.mem_singleton] at hq
    rcases hq with hq | rfl
    · exact h.seqRange q hq
    · exact ⟨hlo, hhi⟩

theorem Ledger.Move.numbered {l m : Ledger} (hm : l.Move m) (hh : l.Handover) (h : l.Numbered) : m.Numbered := by
  have hfall := (hm.handover hh).falling.length_le
  cases hm with
  | restage st hl => exact h.congr (by simp [hl]) rfl
  | startCatch => exact h.congr rfl rfl
  | grant ms hl => exact h.congr (by simp [hl]) rfl
  | request placed hl => exact h.congr (by simp [hl]) rfl
  | create st => exact h.create st (by simpa using hfall)
  | @close older younger x hl =>
    have hsub : ((older ++ younger).map Tag.seq).Sublist (l.tags.map Tag.seq) := by
      rw [hl]
      exact ((List.sublist_cons_self x younger).append_left older).map Tag.seq
    exact ⟨h.distinct.sublist hsub, fun e => h.fresh (hsub.subset e), h.counterRange,
      fun q hq => h.seqRange q (hsub.subset hq)⟩
  | stopCatch => exact h.congr rfl rfl
  | stopTransfer => exact h.congr rfl rfl
  | stopRises => exact h.congr rfl rfl
  | stopFalls => exact h.congr rfl rfl
  | underReset => exact h.congr rfl rfl
  | clear counter _ _ hc =>
    refine ⟨List.nodup_nil, by simp, ?_, by simp⟩
    rcases hc with rfl | rfl
    · exact h.counterRange
    · exact ⟨le_refl 1, by norm_num⟩

end Sys2Proof.Machine
end

section
/-! Proofs. Every command moves the ledger: what each shared operation and each row does to it. -/

namespace Sys2Proof.Machine

/-- The ledger goes from that of `s` to that of `t` by moves. -/
def Leads (s t : State) : Prop := Relation.ReflTransGen Ledger.Move s.ledger t.ledger

theorem Leads.still {s t : State} (h : t.ledger = s.ledger) : Leads s t := by rw [Leads, h]

theorem Leads.move {s t : State} (h : s.ledger.Move t.ledger) : Leads s t := .single h

theorem Leads.trans {s t u : State} (h1 : Leads s t) (h2 : Leads t u) : Leads s u := Relation.ReflTransGen.trans h1 h2

/-- Only the ledgers count. -/
theorem Leads.congr {s t s' t' : State} (h : Leads s t) (hs : s'.ledger = s.ledger) (ht : t'.ledger = t.ledger) :
    Leads s' t' := by rwa [Leads, hs, ht]

/-! ### Operations that leave the ledger as it is -/

theorem State.ledger_congr {s t : State} (hb : t.bt = s.bt) (hu : t.hu = s.hu)
    (hc : t.cu.netCatchTimer = s.cu.netCatchTimer) (hm : t.mi = s.mi) (hn : t.nrstAsserted = s.nrstAsserted) :
    t.ledger = s.ledger := by
  simp only [State.ledger, hb, hu, hc, hm, hn]

@[simp] theorem setLatch_ledger (p : Port) (src : Source) (i : Fin 4) (n : Nat) (s : State) :
    (setLatch p src i n s).ledger = s.ledger := rfl
@[simp] theorem syncDv_ledger (s : State) : (syncDv s).ledger = s.ledger := rfl
@[simp] theorem syncChamber_ledger (s : State) : (syncChamber s).ledger = s.ledger := rfl
@[simp] theorem State.modifyChannel_ledger (s : State) (ch : Channel) (f : ChannelRecord → ChannelRecord) :
    (s.modifyChannel ch f).ledger = s.ledger := rfl
@[simp] theorem State.modifyDispenser_ledger (s : State) (k : Dispenser) (f : DispenserRecord → DispenserRecord) :
    (s.modifyDispenser k f).ledger = s.ledger := rfl
@[simp] theorem State.withAngle_ledger (s : State) (n : Nat) : (s.withAngle n).ledger = s.ledger := rfl
@[simp] theorem State.modifyLine_ledger (s : State) (l : LinePort) (f : LineLink → LineLink) :
    (s.modifyLine l f).ledger = s.ledger := by cases l <;> rfl
@[simp] theorem State.setImage_ledger (s : State) (p : Port) (img : Option Image) :
    (s.setImage p img).ledger = s.ledger := by cases p <;> rfl
@[simp] theorem countLineError_ledger (l : LinePort) (e : LineError) (s : State) :
    (countLineError l e s).ledger = s.ledger := by cases l <;> rfl
@[simp] theorem deliver_ledger (p : Port) (r : Response) (s : State) : (deliver p r s).ledger = s.ledger := by
  cases p <;> rfl
@[simp] theorem beforeTake_ledger (p : Port) (code : Byte) (s : State) : (beforeTake p code s).ledger = s.ledger :=
  State.ledger_congr (by simp) (by simp) (by simp) (by simp) (by simp)

@[simp] theorem recomputeCode_netCatchTimer (s : State) : (recomputeCode s).cu.netCatchTimer = s.cu.netCatchTimer := by
  unfold recomputeCode
  split
  · split <;> rfl
  · rfl

@[simp] theorem recomputeCode_ledger (s : State) : (recomputeCode s).ledger = s.ledger :=
  State.ledger_congr (by simp) (by simp) (by simp) (by simp) (by simp)

theorem map_tag_modifyZone (z : Zone) {f : Bale → Bale} (hf : ∀ b, (f b).tag = b.tag) (bales : List Bale) :
    (modifyZone z f bales).map Bale.tag = bales.map Bale.tag := by
  induction bales with
  | nil => rfl
  | cons b bs ih =>
    rw [modifyZone]
    split
    · simp [hf]
    · simp [ih]

/-- A change of a record in fields the ledger does not keep. -/
theorem State.modifyRecord_ledger (s : State) (z : Zone) {f : Bale → Bale} (hf : ∀ b, (f b).tag = b.tag) :
    (s.modifyRecord z f).ledger = s.ledger := by
  simp [State.ledger, State.modifyRecord_bales, map_tag_modifyZone z hf]

@[simp] theorem State.flagRecord_ledger (s : State) (z : Zone) (f : RecordFlags → RecordFlags) :
    (s.flagRecord z f).ledger = s.ledger := s.modifyRecord_ledger z (fun _ => rfl)

@[simp] theorem State.modifyWrap_ledger (s : State) (f : WrapSection → WrapSection) :
    (s.modifyWrap f).ledger = s.ledger := s.modifyRecord_ledger .table (fun _ => rfl)

/-- Where two states list the same tags, the records they hold in a zone are in one stage. -/
theorem State.stage_of_tags {s t : State} (h : t.ledger.tags = s.ledger.tags) {z : Zone} {b c : Bale}
    (hb : s.recordIn z = some b) (hc : t.recordIn z = some c) : c.stage = b.stage := by
  have hfind : ∀ u : State, (u.recordIn z).map Bale.tag = u.ledger.tags.find? (fun x => x.stage.zone == z) := fun u => by
    rw [State.ledger, List.find?_map]; rfl
  have htag := hfind t
  rw [h, ← hfind s, hb, hc] at htag
  exact congrArg Tag.stage (Option.some.inj htag)

/-! ### Operations that move it -/

theorem State.HoldsIn.tags {s : State} {z : Zone} {older younger : List Bale} {b : Bale}
    (h : s.HoldsIn z older b younger) :
    s.ledger.tags = older.map Bale.tag ++ b.tag :: younger.map Bale.tag := by
  obtain ⟨hl, -, -⟩ := h
  simp [State.ledger, hl]

/-- A zone `recordIn` finds empty has no tag. -/
theorem State.tags_of_recordIn_none {s : State} {z : Zone} (h : s.recordIn z = none) :
    ∀ y ∈ s.ledger.tags, y.stage.zone ≠ z := by
  intro y hy
  obtain ⟨b, hb, rfl⟩ := List.mem_map.mp hy
  exact State.recordIn_eq_none.mp h b hb

theorem stageNeighbours_ledger {st : Stage} (q : Nat) (s : State) (he : st ≠ .ejecting) :
    (stageNeighbours st q s).ledger = s.ledger := by
  cases st with
  | ejecting => exact absurd rfl he
  | forming => simp [stageNeighbours]
  | _ => rfl

theorem State.HoldsIn.enterStage_ledger {s : State} {z : Zone} {older younger : List Bale} {b : Bale}
    (h : s.HoldsIn z older b younger) {st : Stage} (he : st ≠ .ejecting) :
    (Machine.enterStage z st s).ledger =
      { s.ledger with tags := older.map Bale.tag ++ { b.tag with stage := st } :: younger.map Bale.tag } := by
  rw [h.enterStage, stageNeighbours_ledger _ _ he]
  simp [State.ledger, Bale.tag, Bale.toStage]

/-- A stage change but the entry to EJECTING, which is part of a grant. -/
theorem enterStage_leads {z : Zone} {st : Stage} {s : State} (he : st ≠ .ejecting)
    (hg : ∀ b, s.recordIn z = some b → b.stage ≠ .netted ∧
      (st.zone = z ∨ z = .pre ∧ st.zone = .chamber ∧ s.recordIn .chamber = none) ∧
      (b.stage = .netting → s.cu.netCatchTimer = .stopped) ∧
      (b.stage = .ejecting → s.hu.transferTimer = .stopped)) :
    Leads s (enterStage z st s) := by
  cases hb : s.recordIn z with
  | none => exact .still (by rw [enterStage, hb])
  | some b =>
    obtain ⟨older, younger, hh⟩ := State.holdsIn_of_recordIn hb
    obtain ⟨hx, hz, hcatch, htransfer⟩ := hg b hb
    refine .move ?_
    rw [hh.enterStage_ledger he]
    refine .restage st hh.tags hx ?_ hcatch htransfer
    rcases hz with hz | ⟨hz, hst, hc⟩
    · exact .inl (hz.trans hh.2.1.symm)
    · exact .inr ⟨hh.2.1.trans hz, hst, State.tags_of_recordIn_none hc⟩

/-- A stage change on the table but the entry to EJECTING, after changes the ledger does not show. The arrival of an
EJECTING record has stopped the transfer timer. -/
theorem enterStage_table_leads {s t : State} {b : Bale} {st : Stage} (hst : st.zone = .table) (he : st ≠ .ejecting)
    (hb : s.recordIn .table = some b) (hg : b.stage = .ejecting → s.hu.transferTimer = .stopped)
    (h : t.ledger = s.ledger) : Leads s (enterStage .table st t) := by
  refine (enterStage_leads he (fun c hc => ?_)).congr h.symm rfl
  have hz := State.recordIn_zone hc
  have hstage := State.stage_of_tags (congrArg Ledger.tags h) hb hc
  have htimer : t.hu.transferTimer = s.hu.transferTimer := congrArg Ledger.transferTimer h
  refine ⟨?_, .inl hst, ?_, fun e => htimer.trans (hg (hstage.symm.trans e))⟩ <;> intro e <;> simp [e, Stage.zone] at hz

theorem grantEject_leads {s : State} {b : Bale} (queued : Bool) (hb : s.recordIn .chamber = some b)
    (hst : b.stage = .netted) (hr : s.hu.reservation = none) (hs : s.mi.stop.filtered = false) :
    Leads s (grantEject queued s) := by
  obtain ⟨older, younger, hh⟩ := State.holdsIn_of_recordIn hb
  have he : State.HoldsIn { s.modifyRecord .chamber (fun x => { x with ejectRequested := false }) with
      hu := { s.hu with ejectSlot := none } } .chamber older { b with ejectRequested := false } younger := by
    rw [hh.modifyRecord]
    exact ⟨rfl, hh.2.1, hh.2.2⟩
  have hl : (grantEject queued s).ledger = { s.ledger with
      tags := older.map Bale.tag ++ ⟨b.tag.seq, .ejecting, false⟩ :: younger.map Bale.tag
      reservation := some b.tag.seq, slot := none
      transferTimer := .running (s.rs.constants.transferTimeout * 1000) } := by
    unfold grantEject
    rw [hb]
    simp only [he.enterStage]
    cases queued <;> simp [State.ledger, stageNeighbours, Bale.tag, Bale.toStage, syncChamber, syncDv, syncFull]
  exact .move (hl ▸ .grant _ hh.tags hst hr hs)

theorem evalGrant_leads (s : State) : Leads s (evalGrant s) := by
  unfold evalGrant
  split
  next h =>
    obtain ⟨⟨b, hb, hst, -⟩, hr, -, hs⟩ := s.grantable_iff.mp h
    exact grantEject_leads true hb hst hr hs
  next => exact .still rfl

/-- A closure but those of a pin reset. -/
theorem closeRecord_leads (z : Zone) {reason : CloseReason} (s : State) (hr : reason ≠ .reset) :
    Leads s (closeRecord z reason s) := by
  cases hb : s.recordIn z with
  | none => exact .still (by rw [closeRecord, hb])
  | some b =>
    obtain ⟨older, younger, hh⟩ := State.holdsIn_of_recordIn hb
    have hz : b.tag.stage.zone = z := hh.2.1
    have hq : b.tag.seq = b.seq := rfl
    have hclose := Ledger.Move.close hh.tags
    rw [hh.closeRecord, if_neg hr]
    cases z with
    | pre => exact .move (by simpa [hz, State.ledger, closureNeighbours] using hclose)
    | chamber =>
      refine .move ?_
      by_cases hs : s.hu.ejectSlot = some b.seq <;>
        simpa [hz, hq, hs, State.ledger, closureNeighbours, syncChamber, syncDv, syncFull] using hclose
    | table =>
      refine .trans (.move ?_) (by rw [closureNeighbours, if_neg hr]; exact evalGrant_leads _)
      simpa [hz, State.ledger] using hclose

/-- The net-catch timer stopped, whatever becomes of the rest of CU. -/
theorem leads_stopCatch (s : State) : Leads s { s with cu := { s.cu with netCatchTimer := .stopped } } :=
  .move .stopCatch

theorem returnToForming_leads {s : State} (hg : ∀ b, s.recordIn .chamber = some b → b.stage = .netting) :
    Leads s (returnToForming s) := by
  refine (leads_stopCatch s).trans (enterStage_leads (by decide) (fun b hb => ?_))
  have hst := hg b hb
  exact ⟨by simp [hst], .inl rfl, fun _ => rfl, by simp [hst]⟩

theorem createRecord_leads (slot : Nat) (r : Recipe) {st : Stage} {s : State} (hn : s.nrstAsserted = false)
    (hp : s.recordIn .pre = none) (hst : st = .gathering ∨ st = .forming ∧ s.recordIn .chamber = none) :
    Leads s (createRecord slot r st s) := by
  have hmove := Ledger.Move.create (l := s.ledger) st hn (State.tags_of_recordIn_none hp)
    (hst.imp id (fun h => ⟨h.1, State.tags_of_recordIn_none h.2⟩))
  have he : st ≠ .ejecting := by rcases hst with rfl | ⟨rfl, -⟩ <;> simp
  refine .move ?_
  rw [createRecord, stageNeighbours_ledger _ _ he]
  simpa [State.ledger, Bale.tag, newRecord, Function.comp_def] using hmove

end Sys2Proof.Machine
end

section
/-! Proofs. The rows: every command leads from its state to its next one by moves of the ledger, so each invariant of the
ledger that every move keeps is kept by every step. -/

namespace Sys2Proof.Machine

/-! ### The wrap -/

/-- A stage change within the table of a record that was WRAPPING before changes the ledger does not show. -/
theorem wrapping_leads {s t : State} {b : Bale} {w : WrapSection} (hw : s.wrapping = some (b, w))
    (h : t.ledger = s.ledger) {st : Stage} (hst : st.zone = .table) (he : st ≠ .ejecting) :
    Leads s (enterStage .table st t) := by
  obtain ⟨hb, hwrapping, -⟩ := State.wrapping_some hw
  exact enterStage_table_leads hst he hb (fun e => by simp [hwrapping] at e) h

theorem testCompletion_leads (s : State) : Leads s (testCompletion s) := by
  unfold testCompletion
  split
  next hw =>
    split
    · exact (wrapping_leads hw rfl rfl (by decide)).congr rfl (setLatch_ledger _ _ _ _ _)
    · exact .still rfl
  next => exact .still rfl

@[simp] theorem chargeFilm_ledger (k : Dispenser) (b : Bale) (s : State) : (chargeFilm k b s).ledger = s.ledger := by
  unfold chargeFilm
  dsimp only
  split <;> simp

theorem layPosition_leads (k : Dispenser) (s : State) : Leads s (layPosition k s) := by
  unfold layPosition
  split
  next b w _ =>
    split
    next =>
      have hlay := (testCompletion_leads (chargeFilm k b
        (s.modifyWrap (fun x => x.lay k (bandWidth s.rs.constants b.recipe w.circ))))).congr (s' := s)
        (by simp) rfl
      unfold countedLay
      dsimp only
      split
      · exact hlay.congr rfl rfl
      · exact hlay
    next => exact .still rfl
  next => exact .still rfl

theorem capWrap_leads (s : State) : Leads s (capWrap s) := by
  unfold capWrap
  split
  next b w hw =>
    split
    · exact (wrapping_leads hw (State.flagRecord_ledger _ _ _) rfl (by decide)).congr rfl (setLatch_ledger _ _ _ _ _)
    · exact .still rfl
  next => exact .still rfl

@[simp] theorem stepSilence_ledger (k : Dispenser) (q : Nat) (s : State) : (stepSilence k q s).ledger = s.ledger := by
  unfold stepSilence
  dsimp only
  split
  · simp [breakFilm]
  · simp

@[simp] theorem stepSilences_ledger (s : State) : (stepSilences s).ledger = s.ledger := by
  unfold stepSilences
  split <;> simp

theorem tablePulse_leads (s : State) : Leads s (tablePulse s) := by
  unfold tablePulse
  dsimp only
  split
  · exact (layPosition_leads .two _).congr (by simp) rfl
  · exact .still (by simp)

theorem tableIndex_leads (s : State) : Leads s (tableIndex s) := by
  have hlay := (layPosition_leads .one (s.withAngle 0)).congr (s' := s) rfl rfl
  unfold tableIndex
  dsimp only
  split
  · exact hlay.trans ((capWrap_leads _).congr (by simp) rfl)
  · exact hlay

theorem arriveCoverage_leads {s : State} {c : Bale} (hc : s.recordIn .table = some c)
    (ht : s.hu.transferTimer = .stopped) (b : Bale) : Leads s (arriveCoverage b s) := by
  unfold arriveCoverage
  dsimp only
  generalize hf : (if b.moistureMean = none then s.flagRecord .table (fun f => { f with moistureUnknown := true })
    else s) = flagged
  have hl : flagged.ledger = s.ledger := by
    rw [← hf]
    split
    · exact State.flagRecord_ledger _ _ _
    · rfl
  split
  · exact (enterStage_table_leads rfl (by decide) hc (fun _ => ht) hl).congr rfl (setLatch_ledger _ _ _ _ _)
  · exact enterStage_table_leads rfl (by decide) hc (fun _ => ht)
      ((State.modifyRecord_ledger _ _ (by intro _; rfl)).trans hl)

/-! ### Level inputs -/

theorem tableLoadedRising_leads (s : State) : Leads s (tableLoadedRising s) := by
  have harrive : ∀ q, Leads s (arriveHandover q s) := fun q => .move .stopTransfer
  unfold tableLoadedRising
  split
  next b hb =>
    split
    · exact (harrive b.seq).trans (arriveCoverage_leads (s := arriveHandover b.seq s) (c := b) hb rfl b)
    · exact .still rfl
  next => exact .still rfl

theorem tableLoadedFalling_leads (s : State) : Leads s (tableLoadedFalling s) := by
  unfold tableLoadedFalling
  split
  · split
    · exact closeRecord_leads _ _ (by decide)
    · exact (closeRecord_leads _ _ (by decide)).congr (State.flagRecord_ledger _ _ _).symm rfl
    · exact closeRecord_leads _ _ (by decide)
    · exact .still rfl
  · exact .still rfl

/-- STOP's rise, the filtered level already taken. -/
theorem stopRising_leads {s settled : State}
    (h : settled.ledger = { s.ledger with stop := true }) : Leads s (stopRising settled) := by
  have hmove := Ledger.Move.stopRises (l := s.ledger)
  have hl : (stopRising settled).ledger = { settled.ledger with
      catchTimer := settled.ledger.catchTimer.suspend, transferTimer := settled.ledger.transferTimer.suspend } := by
    simp [stopRising, State.ledger, flagStopSeen, syncDv, Bale.tag, Function.comp_def]
  refine .move ?_
  rw [hl, h]
  exact hmove

/-- STOP's fall, the filtered level already taken. -/
theorem stopFalling_leads {s settled : State}
    (h : settled.ledger = { s.ledger with stop := false }) : Leads s (stopFalling settled) := by
  refine .trans (.move ?_) (evalGrant_leads _)
  have hl : ∀ u : State, u.ledger = settled.ledger → ∀ m n : Nat,
      (syncDv { u with
        cu := { u.cu with netCatchTimer := u.cu.netCatchTimer.resume m }
        hu := { u.hu with transferTimer := u.hu.transferTimer.resume n } }).ledger =
      { settled.ledger with
        catchTimer := settled.ledger.catchTimer.resume m
        transferTimer := settled.ledger.transferTimer.resume n } := fun u hu m n => by rw [← hu]; rfl
  rw [hl _ (recomputeCode_ledger settled), h]
  exact .stopFalls _ _

theorem levelArrival_leads {i : LevelInput} {rising : Bool} {s settled : State}
    (h : settled.ledger = if i = .stop then { s.ledger with stop := rising } else s.ledger) :
    Leads s (levelArrival i rising settled) := by
  cases i with
  | stop =>
    cases rising
    · exact stopFalling_leads h
    · exact stopRising_leads h
  | tailgate => exact .still h
  | tableLoaded =>
    cases rising
    · exact (tableLoadedFalling_leads settled).congr h.symm rfl
    · exact (tableLoadedRising_leads settled).congr h.symm rfl

theorem settle_ledger (i : LevelInput) (s : State) :
    (s.modifyLevel i LevelLine.settle).ledger =
      if i = .stop then { s.ledger with stop := (s.mi.level i).pin } else s.ledger := by
  cases i <;> rfl

theorem stabilityExpiry_leads (i : LevelInput) (s : State) : Leads s (stabilityExpiry i s) := by
  have hl := settle_ledger i s
  unfold stabilityExpiry
  dsimp only
  split
  · exact .still rfl
  · split
    next h =>
      by_cases hi : i = .stop
      · subst hi
        rw [if_pos rfl] at hl
        rcases h with hn | hp
        · exact .move (hl ▸ .underReset _ _ hn)
        · exact .still (hl.trans (congrArg (fun v => { s.ledger with stop := v }) hp))
      · exact .still (by rw [hl, if_neg hi])
    next => exact levelArrival_leads hl

/-! ### Other events -/

theorem completeNetting_leads {s : State} {c : Bale} (hc : s.recordIn .chamber = some c) (hst : c.stage = .netting)
    (ht : s.cu.netCatchTimer = .stopped) (b : Bale) (n : NetFields) : Leads s (completeNetting b n s) := by
  have hturns := State.modifyRecord_ledger s .chamber
    (f := fun x => { x with netTurns := some (netTurnsOf b.recipe n) }) (fun _ => rfl)
  refine (enterStage_leads (z := .chamber) (st := .netted) (by decide) (fun x hx => ?_)).congr hturns.symm rfl
  have hx' := (State.stage_of_tags (congrArg Ledger.tags hturns) hc hx).trans hst
  exact ⟨by simp [hx'], .inl rfl, fun _ => ht, by simp [hx']⟩

/-- The NETTING record changed in fields the ledger does not keep, the net-catch timer stopped: netting may complete. -/
theorem meter_leads {s : State} {b : Bale} {f : Bale → Bale} (hb : s.recordIn .chamber = some b)
    (hst : b.stage = .netting) (n : NetFields) (hf : ∀ x, (f x).tag = x.tag) :
    Leads s { s.modifyRecord .chamber f with cu := { s.cu with netCatchTimer := .stopped } } ∧
    Leads s (completeNetting b n { s.modifyRecord .chamber f with cu := { s.cu with netCatchTimer := .stopped } }) := by
  have hl := s.modifyRecord_ledger .chamber hf
  have hstage : ∀ x, (f x).stage = x.stage := fun x => congrArg Tag.stage (hf x)
  have hc : (s.modifyRecord .chamber f).recordIn .chamber = some (f b) := by
    rw [State.recordIn_modifyRecord_same s .chamber f (fun x hx => by rw [hstage]; exact State.recordIn_zone hx), hb]
    rfl
  have hmeter := (leads_stopCatch (s.modifyRecord .chamber f)).congr hl.symm rfl
  refine ⟨hmeter, hmeter.trans (completeNetting_leads ?_ ((hstage b).trans hst) rfl b n)⟩
  exact hc

theorem meterNet_leads (s : State) : Leads s (meterNet s) := by
  unfold meterNet
  split
  next b hb =>
    split
    next n hst hn =>
      dsimp only
      split
      · exact (meter_leads hb hst _ (by intro _; rfl)).2
      · exact (meter_leads hb hst n (by intro _; rfl)).1
    next => exact .still rfl
  next => exact .still rfl

theorem netCatchExpiry_leads (s : State) : Leads s (netCatchExpiry s) := by
  unfold netCatchExpiry
  split
  next b hb =>
    split
    next h =>
      exact (returnToForming_leads (fun c hc => by
        rw [hb, Option.some.injEq] at hc
        rw [← hc, h.2])).congr rfl (setLatch_ledger _ _ _ _ _)
    next => exact .still rfl
  next => exact .still rfl

/-- The transfer timer stopped. -/
theorem leads_stopTransfer (s : State) : Leads s { s with hu := { s.hu with transferTimer := .stopped } } :=
  .move .stopTransfer

theorem transferExpiry_leads (s : State) : Leads s (transferExpiry s) := by
  unfold transferExpiry
  split
  · split
    · exact (leads_stopTransfer s).congr rfl (by simp)
    · exact .still rfl
  · exact .still rfl

theorem usePressure_ledger (value : Nat) (s : State) : (usePressure value s).ledger = s.ledger := by
  have hpeak := State.modifyRecord_ledger s .chamber (f := (·.withPressure value)) (fun b => by
    unfold Bale.withPressure; split <;> rfl)
  unfold usePressure
  dsimp only
  rw [syncDv_ledger]
  split
  · rw [State.flagRecord_ledger]
    exact hpeak
  · exact hpeak

theorem handOff_ledger (ch : Channel) (value : Nat) (s : State) : (handOff ch value s).ledger = s.ledger := by
  cases ch with
  | p => exact usePressure_ledger value s
  | d => exact recomputeCode_ledger s
  | m =>
    exact State.modifyRecord_ledger s .chamber (f := (·.withMoisture value)) (fun b => by
      unfold Bale.withMoisture; split <;> rfl)

theorem conversionCompletion_ledger (ch : Channel) (raw : Int) (s : State) :
    (conversionCompletion ch raw s).ledger = s.ledger := by
  unfold conversionCompletion
  dsimp only
  split
  · rfl
  · simp [handOff_ledger]

theorem zeroDueExpiry_ledger (ch : Channel) (s : State) : (zeroDueExpiry ch s).ledger = s.ledger := by
  unfold zeroDueExpiry
  (repeat' split) <;> rfl

theorem autoZeroCompletion_ledger (ch : Channel) (s : State) : (autoZeroCompletion ch s).ledger = s.ledger := by
  unfold autoZeroCompletion
  split <;> rfl

end Sys2Proof.Machine
end

section
/-! Proofs. The requests: what the owning block of each command does to the ledger, and the two statements that every
step keeps the handover, the timers and the sequence numbers sound. -/

namespace Sys2Proof.Machine

/-! ### Commands that leave the ledger as it is -/

theorem cmdReadNext_ledger (p : Port) (pl : List Byte) (s : State) : (cmdReadNext p pl s).1.ledger = s.ledger := by
  unfold cmdReadNext
  dsimp only
  split
  · rfl
  · split
    · exact State.setImage_ledger _ _ _
    · rfl

theorem acknowledge_ledger (p : Port) (src : Source) (i : Fin 4) (s : State) :
    (acknowledge p src i s).1.ledger = s.ledger := by
  unfold acknowledge
  dsimp only
  split <;> rfl

theorem cmdAckNotice_ledger (p : Port) (pl : List Byte) (s : State) : (cmdAckNotice p pl s).1.ledger = s.ledger := by
  unfold cmdAckNotice
  split
  · exact acknowledge_ledger _ _ _ _
  · rfl

theorem cmdAckCurrent_ledger (p : Port) (pl : List Byte) (s : State) : (cmdAckCurrent p pl s).1.ledger = s.ledger := by
  unfold cmdAckCurrent
  split
  · exact acknowledge_ledger _ _ _ _
  · rfl

theorem cmdReadLinkStats_ledger (p : Port) (pl : List Byte) (s : State) :
    (cmdReadLinkStats p pl s).1.ledger = s.ledger := by
  unfold cmdReadLinkStats
  split
  · rfl
  · dsimp only
    split
    · cases p <;> rfl
    · rfl

theorem cmdPortReset_ledger (p : Port) (pl : List Byte) (s : State) : (cmdPortReset p pl s).1.ledger = s.ledger := by
  cases p <;> rfl

theorem readBaleImage_ledger (p : Port) (found : Option Bale) (s : State) :
    (readBaleImage p found s).1.ledger = s.ledger := by
  cases found with
  | none => rfl
  | some b => exact State.setImage_ledger _ _ _

theorem cmdReadBale_ledger (p : Port) (pl : List Byte) (s : State) : (cmdReadBale p pl s).1.ledger = s.ledger := by
  unfold cmdReadBale
  split
  · exact readBaleImage_ledger _ _ _
  · split
    · split
      · exact readBaleImage_ledger _ _ _
      · rfl
    · rfl

theorem cmdReadChannel_ledger (p : Port) (pl : List Byte) (s : State) : (cmdReadChannel p pl s).1.ledger = s.ledger := by
  unfold cmdReadChannel
  split <;> rfl

theorem cmdHoldZero_ledger (p : Port) (pl : List Byte) (s : State) : (cmdHoldZero p pl s).1.ledger = s.ledger := by
  unfold cmdHoldZero
  split <;> rfl

theorem cmdReleaseZero_ledger (p : Port) (pl : List Byte) (s : State) : (cmdReleaseZero p pl s).1.ledger = s.ledger := by
  unfold cmdReleaseZero
  split <;> rfl

theorem cmdPrezero_ledger (p : Port) (pl : List Byte) (s : State) : (cmdPrezero p pl s).1.ledger = s.ledger := by
  unfold cmdPrezero
  (repeat' split) <;> rfl

theorem cmdRestoreDispenser_ledger (p : Port) (pl : List Byte) (s : State) :
    (cmdRestoreDispenser p pl s).1.ledger = s.ledger := by
  unfold cmdRestoreDispenser
  dsimp only
  (repeat' split) <;> rfl

theorem cmdWithdrawDispenser_ledger (p : Port) (pl : List Byte) (s : State) :
    (cmdWithdrawDispenser p pl s).1.ledger = s.ledger := by
  unfold cmdWithdrawDispenser
  split <;> rfl

theorem cmdNewRoll_ledger (p : Port) (pl : List Byte) (s : State) : (cmdNewRoll p pl s).1.ledger = s.ledger := by
  unfold cmdNewRoll
  dsimp only
  (repeat' split) <;> rfl

theorem cmdLoadRecipe_ledger (p : Port) (pl : List Byte) (s : State) : (cmdLoadRecipe p pl s).1.ledger = s.ledger := by
  unfold cmdLoadRecipe
  dsimp only
  split <;> rfl

theorem cmdReadRecipe_ledger (p : Port) (pl : List Byte) (s : State) : (cmdReadRecipe p pl s).1.ledger = s.ledger := by
  unfold cmdReadRecipe
  dsimp only
  split
  · rfl
  · exact State.setImage_ledger _ _ _

theorem applyConstants_ledger (k : Constants) (s : State) : (applyConstants k s).ledger = s.ledger := by
  unfold applyConstants
  dsimp only
  split <;> rfl

theorem cmdSetMachine_ledger (p : Port) (pl : List Byte) (s : State) : (cmdSetMachine p pl s).1.ledger = s.ledger := by
  have hchannel : ∀ ch group, (setChannelGroup ch group pl s).1.ledger = s.ledger := fun ch group => by
    unfold setChannelGroup
    dsimp only
    split <;> rfl
  unfold cmdSetMachine
  dsimp only
  (repeat' split) <;> first | rfl | exact hchannel _ _ | exact applyConstants_ledger _ _

theorem cmdReadMachine_ledger (p : Port) (pl : List Byte) (s : State) : (cmdReadMachine p pl s).1.ledger = s.ledger := by
  unfold cmdReadMachine
  dsimp only
  (repeat' split) <;> rfl

theorem cmdFetchReport_ledger (p : Port) (pl : List Byte) (s : State) : (cmdFetchReport p pl s).1.ledger = s.ledger := by
  unfold cmdFetchReport
  split
  · rfl
  · exact State.setImage_ledger _ _ _

theorem cmdReleaseReport_ledger (p : Port) (pl : List Byte) (s : State) :
    (cmdReleaseReport p pl s).1.ledger = s.ledger := by
  unfold cmdReleaseReport
  (repeat' split) <;> rfl

theorem cmdQueueStatus_ledger (p : Port) (pl : List Byte) (s : State) : (cmdQueueStatus p pl s).1.ledger = s.ledger := by
  unfold cmdQueueStatus
  split <;> rfl

/-! ### Commands that move it -/

theorem openingStage_cases (s : State) :
    s.openingStage = .gathering ∨ s.openingStage = .forming ∧ s.recordIn .chamber = none := by
  unfold State.openingStage
  split
  next h => exact .inr ⟨rfl, h.1⟩
  next => exact .inl rfl

theorem cmdOpenBale_leads (p : Port) (pl : List Byte) {s : State} (hn : s.nrstAsserted = false) :
    Leads s (cmdOpenBale p pl s).1 := by
  unfold cmdOpenBale
  dsimp only
  split
  · exact .still rfl
  split
  · exact .still rfl
  split
  · exact .still rfl
  split
  · exact .still rfl
  split
  · exact .still rfl
  next hp => exact createRecord_leads _ _ hn (by simpa using hp) (openingStage_cases s)

theorem cmdDumpPrechamber_leads (p : Port) (pl : List Byte) (s : State) : Leads s (cmdDumpPrechamber p pl s).1 := by
  unfold cmdDumpPrechamber
  split
  · exact .still rfl
  next b hb =>
    split
    · exact .still rfl
    next hc =>
      split
      · exact .still rfl
      split
      · exact .still rfl
      refine enterStage_leads (by decide) (fun c hc' => ?_)
      have hz := State.recordIn_zone hc'
      refine ⟨?_, .inr ⟨rfl, rfl, by simpa using hc⟩, ?_, ?_⟩ <;> intro e <;> simp [e, Stage.zone] at hz

/-- A start of netting: the stage change, then the timer, in either order of the two (R77). -/
theorem startNetting_leads {s t : State} {b : Bale} {f : Bale → Bale} {ms : Nat} (hb : s.recordIn .chamber = some b)
    (hst : b.stage = .forming) (hs : s.mi.stop.filtered = false) (hf : ∀ x, (f x).tag = x.tag)
    (ht : t = { s.modifyRecord .chamber f with cu := { s.cu with netCatchTimer := .running ms } }) :
    Leads s (enterStage .chamber .netting t) := by
  obtain ⟨older, younger, hh⟩ := State.holdsIn_of_recordIn hb
  have hzone : (f b).stage.zone = .chamber := by
    rw [show (f b).stage = b.stage from congrArg Tag.stage (hf b)]
    exact hh.2.1
  have hht : t.HoldsIn .chamber older (f b) younger := (hh.modified f hzone).congr (by rw [ht])
  have htl : t.ledger = { s.ledger with catchTimer := .running ms } := by
    rw [← s.modifyRecord_ledger .chamber hf, ht]; rfl
  have hstage := Ledger.Move.restage .netting hh.tags (by simp [Bale.tag, hst]) (.inl hh.2.1.symm)
    (by simp [Bale.tag, hst]) (by simp [Bale.tag, hst])
  refine .tail (.single hstage) ?_
  rw [hht.enterStage_ledger (by decide), htl, hf b]
  exact .startCatch ms ⟨{ b.tag with stage := .netting }, by simp, rfl⟩ hs

theorem cmdNetStart_leads (p : Port) (pl : List Byte) (s : State) : Leads s (cmdNetStart p pl s).1 := by
  unfold cmdNetStart
  split
  · exact .still rfl
  next b hb =>
    split
    · exact .still rfl
    next hst =>
      split
      · exact .still rfl
      next hs => exact startNetting_leads hb (by simpa using hst) (by simpa using hs) (by intro _; rfl) rfl

theorem cmdNetAbort_leads (p : Port) (pl : List Byte) (s : State) : Leads s (cmdNetAbort p pl s).1 := by
  unfold cmdNetAbort
  split
  · exact .still rfl
  next b hb =>
    split
    · exact .still rfl
    next hst =>
      refine returnToForming_leads (fun c hc => ?_)
      rw [hb, Option.some.injEq] at hc
      rw [← hc]
      simpa using hst

theorem cmdTip_leads (p : Port) (pl : List Byte) (s : State) : Leads s (cmdTip p pl s).1 := by
  unfold cmdTip
  dsimp only
  split
  · exact .still rfl
  split
  · exact .still rfl
  next b hb =>
    split
    next hst =>
      split
      · exact .still rfl
      · exact enterStage_table_leads rfl (by decide) hb (fun e => by simp [hst] at e) rfl
    next =>
      split
      next hst =>
        split
        · exact .still rfl
        · exact enterStage_table_leads rfl (by decide) hb (fun e => by simp [hst.1] at e)
            (State.flagRecord_ledger _ _ _)
      next => exact .still rfl

theorem cmdAbandonWrap_leads (p : Port) (pl : List Byte) (s : State) : Leads s (cmdAbandonWrap p pl s).1 := by
  unfold cmdAbandonWrap
  split
  · exact .still rfl
  next hw => exact wrapping_leads hw (State.flagRecord_ledger _ _ _) rfl (by decide)

theorem cmdFreeTable_leads (p : Port) (pl : List Byte) (s : State) : Leads s (cmdFreeTable p pl s).1 :=
  (evalGrant_leads { s with hu := { s.hu with tableHold := false } }).congr rfl rfl

theorem cmdDiscardBale_leads (p : Port) (pl : List Byte) (s : State) : Leads s (cmdDiscardBale p pl s).1 := by
  unfold cmdDiscardBale
  split
  · exact .still rfl
  split
  · exact .still rfl
  · exact closeRecord_leads _ _ (by unfold discardReason; split <;> simp)

/-- In falling zones the NETTED record a command names is the chamber's. -/
theorem ZonesFall.recordIn_of_netted {s : State} (hz : ZonesFall s) {q : Nat} {b : Bale} (hb : s.recordOf q = some b)
    (hst : b.stage = .netted) : s.recordIn .chamber = some b :=
  (hz.recordIn_iff _ b).mpr ⟨List.mem_of_find?_eq_some hb, Stage.zone_netted hst⟩

theorem placeRequest_leads {s : State} {b : Bale} (hb : s.recordIn .chamber = some b) (hst : b.stage = .netted) :
    Leads s (placeRequest b.seq s) := by
  obtain ⟨older, younger, hh⟩ := State.holdsIn_of_recordIn hb
  have hmove := Ledger.Move.request true hh.tags hst
  refine .move ?_
  rw [placeRequest, hh.modifyRecord]
  simpa [State.ledger, Bale.tag] using hmove

theorem withdrawRequest_leads {s : State} {b : Bale} (hb : s.recordIn .chamber = some b) (hst : b.stage = .netted) :
    Leads s (withdrawRequest b.seq s) := by
  obtain ⟨older, younger, hh⟩ := State.holdsIn_of_recordIn hb
  have hmove := Ledger.Move.request false hh.tags hst
  refine .move ?_
  rw [withdrawRequest, hh.modifyRecord]
  by_cases hs : s.hu.ejectSlot = some b.seq <;> simpa [State.ledger, Bale.tag, hs] using hmove

theorem cmdRequestEject_leads (p : Port) (pl : List Byte) {s : State} (hz : ZonesFall s) :
    Leads s (cmdRequestEject p pl s).1 := by
  unfold cmdRequestEject
  split
  · exact .still rfl
  next b hb =>
    split
    · exact .still rfl
    next hst =>
      have hst : b.stage = .netted := by simpa using hst
      have hc := hz.recordIn_of_netted hb hst
      split
      next ho =>
        obtain ⟨hr, -, hs⟩ := s.obstacles_eq_zero.mp ho
        exact grantEject_leads false hc hst hr hs
      next => exact placeRequest_leads hc hst

theorem cmdCancelEject_leads (p : Port) (pl : List Byte) {s : State} (hz : ZonesFall s) :
    Leads s (cmdCancelEject p pl s).1 := by
  unfold cmdCancelEject
  split
  · exact .still rfl
  next b hb =>
    split
    · exact .still rfl
    next hst =>
      have hst : b.stage = .netted := by simpa using hst
      exact withdrawRequest_leads (hz.recordIn_of_netted hb hst) hst

/-! ### Taking a request -/

theorem ownBlock_leads (c : Command) (p : Port) (pl : List Byte) {s : State} (hn : s.nrstAsserted = false)
    (hz : ZonesFall s) : Leads s (ownBlock c p pl s).1 := by
  cases c with
  | identify | readStatus | takeNotice | setNoticePlan | readStock | holdTable => exact .still rfl
  | readNext => exact .still (cmdReadNext_ledger p pl s)
  | ackNotice => exact .still (cmdAckNotice_ledger p pl s)
  | ackCurrent => exact .still (cmdAckCurrent_ledger p pl s)
  | readLinkStats => exact .still (cmdReadLinkStats_ledger p pl s)
  | portReset => exact .still (cmdPortReset_ledger p pl s)
  | readBale => exact .still (cmdReadBale_ledger p pl s)
  | readChannel => exact .still (cmdReadChannel_ledger p pl s)
  | holdZero => exact .still (cmdHoldZero_ledger p pl s)
  | releaseZero => exact .still (cmdReleaseZero_ledger p pl s)
  | prezero => exact .still (cmdPrezero_ledger p pl s)
  | openBale => exact cmdOpenBale_leads p pl hn
  | dumpPrechamber => exact cmdDumpPrechamber_leads p pl s
  | netStart => exact cmdNetStart_leads p pl s
  | netAbort => exact cmdNetAbort_leads p pl s
  | requestEject => exact cmdRequestEject_leads p pl hz
  | cancelEject => exact cmdCancelEject_leads p pl hz
  | discardBale => exact cmdDiscardBale_leads p pl s
  | tip => exact cmdTip_leads p pl s
  | abandonWrap => exact cmdAbandonWrap_leads p pl s
  | restoreDispenser => exact .still (cmdRestoreDispenser_ledger p pl s)
  | withdrawDispenser => exact .still (cmdWithdrawDispenser_ledger p pl s)
  | freeTable => exact cmdFreeTable_leads p pl s
  | loadRecipe => exact .still (cmdLoadRecipe_ledger p pl s)
  | readRecipe => exact .still (cmdReadRecipe_ledger p pl s)
  | setMachine => exact .still (cmdSetMachine_ledger p pl s)
  | readMachine => exact .still (cmdReadMachine_ledger p pl s)
  | newRoll => exact .still (cmdNewRoll_ledger p pl s)
  | fetchReport => exact .still (cmdFetchReport_ledger p pl s)
  | releaseReport => exact .still (cmdReleaseReport_ledger p pl s)
  | queueStatus => exact .still (cmdQueueStatus_ledger p pl s)

theorem ZonesFall.congr {s t : State} (hz : ZonesFall s) (h : t.ledger = s.ledger) : ZonesFall t := by
  rw [zonesFall_iff, h, ← zonesFall_iff]; exact hz

theorem carryOutCode_leads (p : Port) (code : Byte) (pl : List Byte) {s : State} (hn : s.nrstAsserted = false)
    (hz : ZonesFall s) : Leads s (carryOutCode p code pl s).1 := by
  unfold carryOutCode carryOut
  split
  · split
    · exact .still rfl
    split
    · exact .still rfl
    · exact ownBlock_leads _ p pl hn hz
  · exact .still rfl

theorem takeRequest_leads (p : Port) (code : Byte) (pl : List Byte) {s : State} (hz : ZonesFall s) :
    Leads s (takeRequest p code pl s) := by
  unfold takeRequest
  split
  · exact .still rfl
  next hn =>
    have hbefore := beforeTake_ledger p code s
    exact (carryOutCode_leads p code pl (s := beforeTake p code s) (by simpa using hn) (hz.congr hbefore)).congr
      hbefore.symm (deliver_ledger _ _ _)

/-! ### The wire -/

@[simp] theorem setReceiver_ledger (l : LinePort) (rx : Receiver) (s : State) :
    (setReceiver l rx s).ledger = s.ledger := State.modifyLine_ledger _ _ _

@[simp] theorem abandonFrame_ledger (l : LinePort) (s : State) : (abandonFrame l s).ledger = s.ledger := by
  unfold abandonFrame
  split <;> simp


theorem handleGood_leads (l : LinePort) (r : Request) {s : State} (hz : ZonesFall s) : Leads s (handleGood l r s) := by
  unfold handleGood
  split
  · exact takeRequest_leads _ _ _ hz
  · split <;> exact .still (by simp)

theorem afterAppend_leads (l : LinePort) (chars : List Byte) (damaged : Bool) {s : State} (hz : ZonesFall s) :
    Leads s (afterAppend l chars damaged s) := by
  unfold afterAppend
  split
  · exact .still (by simp)
  split
  · unfold completeFrame
    split
    · exact .still (by simp)
    split
    · exact .still (by simp)
    · exact (handleGood_leads l _ (hz.congr (setReceiver_ledger l .dozing s))).congr (by simp) rfl
  · exact .still (by simp)

theorem addressCharacter_ledger (l : LinePort) (data : Byte) (stopError : Bool) (s : State) :
    (addressCharacter l data stopError s).ledger = s.ledger := by
  unfold addressCharacter
  (repeat' split) <;> simp

theorem dataCharacter_leads (l : LinePort) (data : Byte) (stopError : Bool) {s : State} (hz : ZonesFall s) :
    Leads s (dataCharacter l data stopError s) := by
  unfold dataCharacter
  split
  · exact .still rfl
  split
  · exact .still rfl
  · exact afterAppend_leads _ _ _ hz

theorem transmissionCompletion_leads (l : LinePort) {s : State} (hz : ZonesFall s) :
    Leads s (transmissionCompletion l s) := by
  unfold transmissionCompletion
  split
  · exact .still rfl
  split
  · exact .still rfl
  · exact .still (by simp)
  · exact (takeRequest_leads _ _ _ (hz.congr (State.modifyLine_ledger s l _))).congr (by simp) rfl

theorem writeTransaction_leads (write : WriteTransfer) {s : State} (hz : ZonesFall s) :
    Leads s (writeTransaction write s) := by
  rcases writeTransaction_cases write s with ⟨-, h⟩ | ⟨-, h⟩ <;> rw [h]
  · exact .still rfl
  · rcases decideWrite_cases write.bytes (s.onWires (writeAcks write.bytes.length) []) with
      ⟨-, h⟩ | ⟨-, -, h⟩ | ⟨-, -, -, h⟩ | ⟨-, -, -, h⟩ <;> rw [h]
    · exact .still rfl
    · exact .still rfl
    · exact .still rfl
    · exact takeRequest_leads (s := s.onWires (writeAcks write.bytes.length) []) _ _ _ (hz.congr rfl)

theorem readTransaction_ledger (read : ReadTransfer) (s : State) : (readTransaction read s).ledger = s.ledger := by
  rcases readTransaction_cases read s with ⟨-, h⟩ | ⟨-, h⟩ <;> rw [h] <;> rfl

/-! ### Every row -/

theorem powerOn_leads (straps : Straps) (s : State) : Leads s (powerOn straps s) :=
  .move (.clear 1 _ _ (.inr rfl))

theorem assertReset_leads (s : State) : Leads s (assertReset s) := by
  obtain ⟨hbt, -, hframe⟩ := closeAll_reset s
  have hmi : (closeAll s).mi = s.mi := hframe .mi (by simp)
  have hl : (assertReset s).ledger =
      ⟨[], s.bt.seqCounter, none, none, .stopped, .stopped, s.mi.stop.filtered, true⟩ := by
    simp [State.ledger, assertReset, hbt, hmi, idleHandover, idleChamber]
  exact .move (hl ▸ .clear _ _ _ (.inl rfl))

theorem releaseReset_leads (straps : Straps) {s : State} (hn : s.nrstAsserted = true) :
    Leads s (releaseReset straps s) := .move (.underReset s.mi.stop.filtered false hn)

theorem LevelLine.pinTo_filtered (x : LevelLine) (v : Bool) : (x.pinTo v).filtered = x.filtered := by
  unfold LevelLine.pinTo
  (repeat' split) <;> rfl

theorem pinTo_ledger (i : LevelInput) (v : Bool) (s : State) : (s.modifyLevel i (·.pinTo v)).ledger = s.ledger := by
  cases i with
  | stop => simp [State.ledger, State.modifyLevel, LevelLine.pinTo_filtered]
  | tailgate => rfl
  | tableLoaded => rfl

theorem baleRoll_ledger (s : State) : (baleRoll s).ledger = s.ledger := by
  unfold baleRoll
  split <;> simp

/-- Nothing is led to under nRST, where the row leaves the state as it is. -/
theorem Leads.ite_self {s t : State} {c : Prop} [Decidable c] (h : Leads s t) : Leads s (if c then s else t) := by
  split
  · exact .still rfl
  · exact h

/-- Every command leads to its next state by moves of the ledger. -/
theorem exec_leads (i : Instr) {s t : State} (hz : ZonesFall s) (h : exec i s = .next t) : Leads s t := by
  cases hr : requestRow i with
  | some row =>
    obtain ⟨p, code, pl⟩ := row
    rw [exec_requestRow s hr] at h
    cases h
    exact takeRequest_leads p code pl hz
  | none =>
    cases i with
    | powerOnReset straps => cases h; exact powerOn_leads straps s
    | pinResetAssertion => cases h; exact assertReset_leads s
    | pinResetRelease straps =>
      cases h
      refine .congr (t := if s.nrstAsserted = true then releaseReset straps s else s) ?_ rfl rfl
      split
      next hn => exact releaseReset_leads straps hn
      next => exact .still rfl
    | runClockTick => cases h; exact .still rfl
    | pdmOutputSlot => cases h; exact .still rfl
    | levelPinChange input asserted =>
      cases h
      exact .still (pinTo_ledger input asserted s)
    | stabilityTimerExpiry input => cases h; exact stabilityExpiry_leads input s
    | tablePulse => cases h; exact (tablePulse_leads s).ite_self
    | tableIndex => cases h; exact (tableIndex_leads s).ite_self
    | baleRoll => cases h; exact Leads.ite_self (.still (baleRoll_ledger s))
    | netRoll => cases h; exact ((meterNet_leads s).congr (t' := netRoll s) rfl rfl).ite_self
    | filmPulse k => cases h; exact Leads.ite_self (.still rfl)
    | conversionCompletion ch raw => cases h; exact .still (conversionCompletion_ledger ch raw s)
    | zeroDueExpiry ch => cases h; exact .still (zeroDueExpiry_ledger ch s)
    | autoZeroCompletion ch => cases h; exact .still (autoZeroCompletion_ledger ch s)
    | netCatchExpiry => cases h; exact netCatchExpiry_leads s
    | transferTimerExpiry => cases h; exact transferExpiry_leads s
    | addressCharacter l data stopError => cases h; exact .still (addressCharacter_ledger l data stopError s)
    | dataCharacter l data stopError => cases h; exact dataCharacter_leads l data stopError hz
    | interCharacterTimeout l => cases h; exact Leads.ite_self (.still (by simp))
    | responseTransmissionCompletion l => cases h; exact transmissionCompletion_leads l hz
    | writeTransaction write => cases h; exact writeTransaction_leads write hz
    | readTransaction read => cases h; exact .still (readTransaction_ledger read s)
    | _ => cases hr

/-- Every step leads to its next state by moves of the ledger. -/
theorem step_leads {s t : State} (hz : ZonesFall s) (h : step s = .next t) : Leads s t := by
  unfold step at h
  split at h
  · cases h; exact .still rfl
  next c rest _ => exact exec_leads c (s := { s with pending := rest }) hz h

/-! ### The statements -/

/-- What every move keeps is kept along a chain of moves. -/
theorem Leads.keeps {P : Ledger → Prop} (hP : ∀ l m : Ledger, l.Move m → P l → P m) {s t : State} (h : Leads s t)
    (hs : P s.ledger) : P t.ledger := by
  unfold Leads at h
  generalize s.ledger = l, t.ledger = m at h hs
  induction h with
  | refl => exact hs
  | tail _ hm ih => exact hP _ _ hm ih

/-- Settles O56: every step is a chain of the ledger's moves, and each move keeps the handover sound. -/
theorem handoverStaysSound : Obligations.HandoverStaysSound := by
  intro s t hs hstep
  rw [handoverInv_iff] at hs ⊢
  exact (step_leads ((zonesFall_iff s).mpr hs.falling) hstep).keeps (fun _ _ hm => hm.handover) hs

/-- Settles O57: on the chain of O56, each move keeps the timers with their records and STOP, and the numbers distinct. -/
theorem timersAndSequenceNumbers : Obligations.TimersAndSequenceNumbers := by
  constructor
  · rintro s t ⟨hs, ht⟩ hstep
    have hz := hs.1
    have hzt : ZonesFall t := (handoverStaysSound s t hs hstep).1
    rw [timerInv_iff hz] at ht
    rw [timerInv_iff hzt]
    exact ((step_leads hz hstep).keeps (P := fun l => l.Handover ∧ l.Timed)
      (fun _ _ hm h => ⟨hm.handover h.1, hm.timed h.1 h.2⟩) ⟨(handoverInv_iff s).mp hs, ht⟩).2
  · rintro s t ⟨hs, hq⟩ hstep
    rw [seqInv_iff] at hq ⊢
    exact ((step_leads hs.1 hstep).keeps (P := fun l => l.Handover ∧ l.Numbered)
      (fun _ _ hm h => ⟨hm.handover h.1, hm.numbered h.1 h.2⟩) ⟨(handoverInv_iff s).mp hs, hq⟩).2

end Sys2Proof.Machine
end

section
/-! Proofs. The run clock and the output stage (R12, R74), the three resets (R26, R27, R202), and the invariants after
power-on. -/

namespace Sys2Proof.Machine

/-! ### The output stage (R74) -/

/-- CU after an output slot. -/
def ChamberUnit.slot (x : ChamberUnit) : ChamberUnit :=
  { x with
    dvout := decide (65536 ≤ x.pdmAcc + x.dvCode)
    pdmAcc := if 65536 ≤ x.pdmAcc + x.dvCode then x.pdmAcc + x.dvCode - 65536 else x.pdmAcc + x.dvCode }

theorem exec_pdmOutputSlot (s : State) : exec .pdmOutputSlot s = .next { s with cu := s.cu.slot } := rfl

/-- The accumulator loses 65536 in every high slot and gains the code in every slot, so over `n` slots the high ones are
as many as 65536 goes into their sum. -/
theorem highSlots_eq (n : Nat) (s : State) (hc : s.cu.dvCode ≤ 65535) (ha : s.cu.pdmAcc ≤ 65535) :
    highSlots n s = (s.cu.pdmAcc + n * s.cu.dvCode) / 65536 := by
  induction n generalizing s with
  | zero => simp [highSlots]; omega
  | succ n ih =>
    have hacc : s.cu.slot.pdmAcc ≤ 65535 := by
      simp only [ChamberUnit.slot]
      split <;> omega
    have hrest := ih { s with cu := s.cu.slot } hc hacc
    have hcode : s.cu.slot.dvCode = s.cu.dvCode := rfl
    rw [highSlots, exec_pdmOutputSlot]
    simp only [hrest, hcode, Nat.add_mul, Nat.one_mul]
    generalize n * s.cu.dvCode = rest
    by_cases hh : 65536 ≤ s.cu.pdmAcc + s.cu.dvCode
    · simp only [ChamberUnit.slot, hh, decide_true, if_true, Bool.toNat_true]
      omega
    · simp only [ChamberUnit.slot, hh, decide_false, if_false, Bool.toNat_false]
      omega

/-- Changing CU alone. -/
theorem OnlyChanges.of_cu (s : State) (x : ChamberUnit) : OnlyChanges [.cu] s { s with cu := x } := by
  intro k hk
  cases k with
  | arbiter p => exact ⟨rfl, rfl, rfl⟩
  | link p => cases p <;> rfl
  | _ => first | rfl | simp at hk

/-- Changing BT alone. -/
theorem OnlyChanges.of_bt (s : State) (x : BaleTable) : OnlyChanges [.bt] s { s with bt := x } := by
  intro k hk
  cases k with
  | arbiter p => exact ⟨rfl, rfl, rfl⟩
  | link p => cases p <;> rfl
  | _ => first | rfl | simp at hk

/-- Changing HU alone. -/
theorem OnlyChanges.of_hu (s : State) (x : HandoverUnit) : OnlyChanges [.hu] s { s with hu := x } := by
  intro k hk
  cases k with
  | arbiter p => exact ⟨rfl, rfl, rfl⟩
  | link p => cases p <;> rfl
  | _ => first | rfl | simp at hk

/-- Changing CU and HU alone. -/
theorem OnlyChanges.of_cu_hu (s : State) (x : ChamberUnit) (y : HandoverUnit) :
    OnlyChanges [.cu, .hu] s { s with cu := x, hu := y } := by
  intro k hk
  cases k with
  | arbiter p => exact ⟨rfl, rfl, rfl⟩
  | link p => cases p <;> rfl
  | _ => first | rfl | simp at hk

/-- Changing BT and RQ alone. -/
theorem OnlyChanges.of_bt_rq (s : State) (x : BaleTable) (y : ReportQueue) :
    OnlyChanges [.bt, .rq] s { s with bt := x, rq := y } := by
  intro k hk
  cases k with
  | arbiter p => exact ⟨rfl, rfl, rfl⟩
  | link p => cases p <;> rfl
  | _ => first | rfl | simp at hk

theorem runClockTick_runs (s : State) (h : s.bt.runClock ≤ 4294967295) : Runs .runClockTick s (fun t =>
    t.bt = { s.bt with runClock := if s.bt.runClock = 4294967295 then 0 else s.bt.runClock + 1 } ∧
    OnlyChanges [.bt] s t ∧ t.na = s.na) := by
  have hclock : (if s.bt.runClock < 4294967295 then s.bt.runClock + 1 else 0) =
      if s.bt.runClock = 4294967295 then 0 else s.bt.runClock + 1 := by
    split <;> split <;> omega
  exact .intro rfl ⟨by rw [← hclock], .of_bt _ _, rfl⟩

/-- Settles O3: the tick and the slot by their equations, the share by the accumulator's balance over the slots. -/
theorem clockTickAndOutputSlots : Obligations.ClockTickAndOutputSlots := by
  refine ⟨fun s => ⟨runClockTick_runs s, .intro (exec_pdmOutputSlot s) ⟨fun h => ?_, fun h => ?_, .of_cu _ _, rfl⟩⟩,
    fun s hc ha => ?_⟩
  · simp [ChamberUnit.slot, h]
  · simp [ChamberUnit.slot, Nat.not_le.mpr h]
  · rw [highSlots_eq 65536 s hc ha]
    omega

/-! ### Default values -/

theorem isDefaultPlan_default (p : Port) : IsDefaultPlan p (defaultPlan p) := by
  refine ⟨rfl, rfl, rfl, ?_⟩
  cases p <;> decide

@[simp] theorem defaultArbiters_latch {s : State} {attention : Bool} (h : s.na = defaultArbiters attention) (p : Port)
    (src : Source) (i : Fin 4) : s.latch p src i = none := by
  have hclear : ∀ j : Fin 4, clearPlaces.get j = none := by decide
  have hplaces : (s.na.get p).latches.get src = clearPlaces := by
    rw [h]
    cases p <;> cases src <;> rfl
  rw [State.latch, hplaces, hclear]

/-- Three arbiters at their defaults, whatever their lines: nothing set, nothing captured, the default plan. -/
theorem default_notices {s : State} {attention : Bool} (h : s.na = defaultArbiters attention) (p : Port) :
    (∀ src i, (refreshAttention s).latch p src i = none) ∧ ((refreshAttention s).na.get p).current = none ∧
      IsDefaultPlan p ((refreshAttention s).na.get p).plan := by
  have hplan : (s.na.get p).plan = defaultPlan p := by rw [h]; cases p <;> rfl
  refine ⟨fun src i => ?_, ?_, by rw [refreshAttention_plan, hplan]; exact isDefaultPlan_default p⟩
  · rw [← defaultArbiters_latch h p src i]
    cases p <;> rfl
  · have hcurrent : (s.na.get p).current = none := by rw [h]; cases p <;> rfl
    rw [← hcurrent]
    cases p <;> rfl

/-- A link unit at its idle value sends nothing. -/
theorem idle_line {s : State} (ha : s.la = idleLine) (hb : s.lb = idleLine) (l : LinePort) :
    (s.line l).Cleared ∧ s.sends l = [] := by
  have hl : s.line l = idleLine := by cases l <;> assumption
  exact ⟨by rw [hl]; rfl, State.sends_none (by rw [hl]; rfl)⟩

/-! ### Power-on (R27) -/

/-- STOP's filtered level is asserted at power-on, and with it the three lines (R182). -/
theorem powerOn_raised (straps : Straps) (s : State) (p : Port) : (powerOn straps s).raised p = true := by
  cases p <;> rfl

theorem powerOn_frame (straps : Straps) (s : State) :
    OnlyChanges [.nrst, .straps, .bt, .mf, .mi, .rs, .cu, .hu, .ds, .rq, .arbiter .a, .arbiter .b, .arbiter .c,
      .link .a, .link .b, .link .c] s (powerOn straps s) := by
  intro k hk
  cases k with
  | pending | freeCount => rfl
  | arbiter p => cases p <;> simp at hk
  | link p => cases p <;> simp at hk
  | _ => simp at hk

/-- Settles O4: every block by its power-on value; the lines by R171, STOP's condition bidding on each port. -/
theorem powerOnReset : Obligations.PowerOnReset := by
  intro straps s
  refine .intro rfl ⟨rfl, rfl, rfl, rfl, rfl, fun ch => ?_, ⟨rfl, rfl, rfl⟩, rfl, ?_, rfl, ⟨rfl, rfl, rfl⟩,
    ⟨rfl, rfl, rfl, rfl⟩, fun i => ?_, rfl, rfl, fun k => ?_, ⟨rfl, rfl⟩, rfl, fun p => ?_,
    idle_line rfl rfl, rfl, ?_⟩
  · cases ch <;> rfl
  · show ∀ x ∈ defaultSlots, x.recipe = defaultRecipe
    decide
  · cases i <;> exact ⟨rfl, rfl⟩
  · cases k <;> rfl
  · obtain ⟨hlatch, hcurrent, hplan⟩ := default_notices (s := powerOn straps s) (attention := false) rfl p
    exact ⟨hlatch, hcurrent, hplan, (refreshAttention_attention _ p).trans (powerOn_raised straps s p),
      refreshAttention_lineFollows rfl p⟩
  · exact (OnlyChanges_refreshAttention _ _ _).mpr (powerOn_frame straps s)

/-! ### Pin reset (R26, R202) -/

theorem assertReset_frame (s : State) :
    OnlyChanges [.nrst, .bt, .mf, .cu, .hu, .ds, .rq, .arbiter .a, .arbiter .b, .arbiter .c, .link .a, .link .b,
      .link .c] s (assertReset s) := by
  obtain ⟨-, -, hframe⟩ := closeAll_reset s
  refine (hframe.mono (by simp)).trans (fun k hk => ?_)
  cases k with
  | arbiter p => cases p <;> simp at hk
  | link p => cases p <;> simp at hk
  | _ => first | rfl | simp at hk

theorem releaseReset_frame (straps : Straps) (s : State) :
    OnlyChanges [.nrst, .straps, .mf, .link .a, .link .b, .link .c] s (releaseReset straps s) := by
  intro k hk
  cases k with
  | arbiter p => exact ⟨rfl, rfl, rfl⟩
  | link p => cases p <;> simp at hk
  | _ => first | rfl | simp at hk

theorem pinResetAssertion_runs (s : State) : Runs .pinResetAssertion s (fun t =>
    t.nrstAsserted = true ∧
    BalesBecome [] s t ∧
    OffersReach (s.bt.bales.map (fun b => b.closedBy .reset s.bt.runClock)) s.rq t.rq ∧
    (∀ ch, t.mf.get ch = { s.mf.get ch with
      stale := true, saturated := false, debt := 0, hold := ⟨false, false, false⟩, zeroing := false,
      convTimer := .stopped, zeroDueTimer := .stopped }) ∧
    t.cu = idleChamber ∧ t.hu = idleHandover ∧
    (∀ k, t.ds.film.get k = { s.ds.film.get k with state := .out, silence := 0, residue := 0 }) ∧
    (t.ds.netStock = s.ds.netStock ∧ t.ds.netKnown = s.ds.netKnown) ∧
    (∀ p, (∀ src i, t.latch p src i = none) ∧ (t.na.get p).current = none ∧
      IsDefaultPlan p (t.na.get p).plan ∧ (t.na.get p).attention = false) ∧
    (∀ l, (t.line l).Cleared ∧ t.sends l = []) ∧ t.lc.Cleared ∧
    OnlyChanges [.nrst, .bt, .mf, .cu, .hu, .ds, .rq, .arbiter .a, .arbiter .b, .arbiter .c, .link .a, .link .b,
      .link .c] s t) := by
  obtain ⟨hbt, hrq, hframe⟩ := closeAll_reset s
  have hmf : (closeAll s).mf = s.mf := hframe .mf (by simp)
  have hds : (closeAll s).ds = s.ds := hframe .ds (by simp)
  have hstock : (closeAll s).ds.netStock = s.ds.netStock := by rw [hds]
  have hknown : (closeAll s).ds.netKnown = s.ds.netKnown := by rw [hds]
  refine .intro rfl ⟨rfl, hbt, hrq, fun ch => ?_, rfl, rfl, fun k => ?_, ⟨hstock, hknown⟩, fun p => ?_,
    idle_line rfl rfl, rfl, (OnlyChanges_refreshAttention _ _ _).mpr (assertReset_frame s)⟩
  · rw [← hmf]; cases ch <;> rfl
  · rw [← hds]; cases k <;> rfl
  · obtain ⟨hlatch, hcurrent, hplan⟩ := default_notices (s := assertReset s) (attention := false) rfl p
    exact ⟨hlatch, hcurrent, hplan, refreshAttention_attention _ p⟩

/-- Settles O5: the closures by R26 one by one, then each block's pin-reset value; at the release the lines by R171. -/
theorem pinReset : Obligations.PinReset := by
  refine ⟨pinResetAssertion_runs, fun straps s => .intro rfl ⟨fun hn => ?_, fun hn => ?_⟩⟩
  · rw [if_pos hn]
    refine ⟨rfl, rfl, fun ch => ?_, idle_line rfl rfl, rfl, refreshAttention_lineFollows rfl,
      (OnlyChanges_refreshAttention _ _ _).mpr (releaseReset_frame straps s)⟩
    cases ch <;> rfl
  · rw [if_neg (by simp [hn])]
    exact (OnlyChanges_refreshAttention _ _ _).mpr (.refl _ _)

/-! ### The invariants after power-on -/

theorem reset_attention : AttentionInv State.reset := by
  intro p
  rw [← State.raised_iff]
  cases p <;> decide

theorem defaultRecipe_legal : defaultRecipe.Legal := by
  unfold Recipe.Legal; decide

theorem reset_recipes : RecipeInv State.reset := by
  refine ⟨rfl, fun x hx => ?_, by simp [State.reset, emptyTable], ?_, fun ch => ?_, by decide⟩
  · have : x.recipe = defaultRecipe := by revert x; show ∀ x ∈ defaultSlots, _; decide
    rw [this]
    exact defaultRecipe_legal
  · unfold Constants.Legal; decide
  · unfold ChannelConstants.Legal; cases ch <;> decide

theorem reset_stocks : StockInv State.reset := by
  refine ⟨by decide, fun k => ?_⟩
  unfold DispenserRecord.StockInv
  cases k <;> decide

/-- With no record live and HU idle the handover is sound. -/
theorem reset_handover : HandoverInv State.reset :=
  ⟨List.Pairwise.nil, fun _ => rfl, rfl, fun _ h => (by cases h), fun _ h => (by cases h)⟩

theorem reset_timers : TimerInv State.reset := by
  refine ⟨fun h => absurd rfl h, fun h => absurd rfl h, ?_, ?_⟩ <;> decide

theorem reset_numbers : SeqInv State.reset := by
  refine ⟨List.nodup_nil, by decide, by decide, fun _ h => by cases h⟩

theorem reset_debts : DebtInv State.reset := by
  intro ch
  unfold ChannelRecord.DebtInv
  cases ch <;> decide

/-- Settles O52: each invariant of the one reset state by its values. -/
theorem resetMeetsTheInvariants : Obligations.ResetMeetsTheInvariants :=
  ⟨reset_attention, reset_debts, ⟨rfl, rfl, by decide⟩, reset_handover, reset_timers, reset_numbers, reset_stocks,
    ⟨by decide, by decide, by decide⟩, reset_recipes, fun _ h => by cases h⟩

end Sys2Proof.Machine
end

section
/-! Proofs. The level inputs' changes as they are handed on: STOP rising and falling (R10, R45, R85, R100), TABLE_LOADED
falling (R127, R128), and the closure of a table record with the grant it may bring (R24, R93). -/

namespace Sys2Proof.Machine

/-! ### The hand-on (R43) -/

/-- At the expiry of a running timer a pin level that differs from the filtered one is taken and handed on. -/
theorem exec_stabilityTimerExpiry {i : LevelInput} {v : Bool} {s : State} (hn : s.nrstAsserted = false)
    (ht : (s.mi.level i).timer.isRunning = true) (hp : (s.mi.level i).pin = v) (hf : (s.mi.level i).filtered = !v) :
    exec (.stabilityTimerExpiry i) s =
      .next (refreshAttention (levelArrival i v (s.modifyLevel i LevelLine.settle))) := by
  have harrival : stabilityExpiry i s = levelArrival i v (s.modifyLevel i LevelLine.settle) := by
    simp [stabilityExpiry, ht, hn, hp, hf]
  rw [← harrival]
  rfl

theorem State.modifyLevel_frame (s : State) (i : LevelInput) (f : LevelLine → LevelLine) :
    OnlyChanges [.mi] s (s.modifyLevel i f) := by
  intro k hk
  cases i <;>
    (cases k with
      | arbiter p => exact ⟨rfl, rfl, rfl⟩
      | link p => cases p <;> rfl
      | _ => first | rfl | simp at hk)

/-! ### STOP -/

theorem Timer.suspend_eq (t : Timer) : t.suspend = if t.isRunning then .suspended else t := by cases t <;> rfl

theorem Timer.resume_eq (ms : Nat) (t : Timer) : t.resume ms = if t = .suspended then .running ms else t := by
  cases t <;> rfl

/-- Under STOP the valve is not driven, whatever else holds (R73). -/
theorem stopRising_cu {s : State} (h : s.mi.stop.filtered = true) : (stopRising s).cu =
    { s.cu with dvCode := 0, netCatchTimer := s.cu.netCatchTimer.suspend } := by
  rw [stopRising, syncDv_eq]
  simp [driveCode, h]

theorem stopRising_frame (s : State) : OnlyChanges [.bt, .cu, .hu] s (stopRising s) := by
  intro k hk
  cases k with
  | arbiter p => exact ⟨rfl, rfl, rfl⟩
  | link p => cases p <;> rfl
  | _ => first | rfl | simp at hk

theorem stopRising_runs {s : State} (hn : s.nrstAsserted = false) (ht : s.mi.stop.timer.isRunning = true)
    (hp : s.mi.stop.pin = true) (hf : s.mi.stop.filtered = false) :
    Runs (.stabilityTimerExpiry .stop) s (fun t =>
      t.mi.stop.filtered = true ∧
      BalesBecome (s.bt.bales.map (fun b => { b with flags := { b.flags with stopSeen := true } })) s t ∧
      t.cu = { s.cu with
        dvCode := 0, netCatchTimer := if s.cu.netCatchTimer.isRunning then .suspended else s.cu.netCatchTimer } ∧
      t.hu = { s.hu with
        transferTimer := if s.hu.transferTimer.isRunning then .suspended else s.hu.transferTimer } ∧
      OnlyChanges [.mi, .bt, .cu, .hu] s t) := by
  refine .intro (exec_stabilityTimerExpiry (i := .stop) hn ht hp hf) ⟨hp, rfl, ?_, ?_, ?_⟩
  · rw [← Timer.suspend_eq]
    exact stopRising_cu hp
  · rw [← Timer.suspend_eq]
    rfl
  · rw [OnlyChanges_refreshAttention]
    exact ((s.modifyLevel_frame .stop _).mono (by simp)).trans ((stopRising_frame _).mono (by simp))

theorem recomputeCode_frame (s : State) : OnlyChanges [.cu] s (recomputeCode s) := by
  unfold recomputeCode
  split
  · split
    · exact .of_cu s _
    · exact .refl _ _
  · exact .refl _ _

/-- Of CU only the computed code is recomputed. -/
theorem recomputeCode_cu (s : State) :
    (recomputeCode s).cu = { s.cu with computedCode := (recomputeCode s).cu.computedCode } := by
  unfold recomputeCode
  split
  · split <;> rfl
  · rfl

theorem recomputeCode_forming {s : State} {b : Bale} (hb : s.recordIn .chamber = some b) (hst : b.stage = .forming) :
    (recomputeCode s).cu.computedCode = codeFor s.rs.constants b.recipe s.mf.d.value := by
  rw [recomputeCode, hb]
  simp [hst, codeFor]

theorem recomputeCode_not_forming {s : State} (h : ∀ b, s.recordIn .chamber = some b → b.stage ≠ .forming) :
    recomputeCode s = s := by
  unfold recomputeCode
  split
  next b hb => rw [if_neg (h b hb)]
  next => rfl

@[simp] theorem recomputeCode_recordIn (s : State) (z : Zone) : (recomputeCode s).recordIn z = s.recordIn z :=
  State.recordIn_congr (by rw [recomputeCode_bt]) z

/-- What STOP's fall does before the waiting request is evaluated (R72, R73, R81, R96). -/
def resumeDrive (s : State) : State :=
  let recomputed := recomputeCode s
  syncDv
    { recomputed with
      cu := { recomputed.cu with
        netCatchTimer := recomputed.cu.netCatchTimer.resume (s.rs.constants.netCatchTimeout * 100) }
      hu := { recomputed.hu with
        transferTimer := recomputed.hu.transferTimer.resume (s.rs.constants.transferTimeout * 1000) } }

theorem stopFalling_eq (s : State) : stopFalling s = evalGrant (resumeDrive s) := rfl

theorem resumeDrive_computedCode (s : State) :
    (resumeDrive s).cu.computedCode = (recomputeCode s).cu.computedCode := rfl

theorem resumeDrive_cu {s : State} (h : s.mi.stop.filtered = false) : (resumeDrive s).cu = { s.cu with
    computedCode := (resumeDrive s).cu.computedCode
    dvCode := driveCode false s.cu.lockout (s.recordIn .chamber).isSome (resumeDrive s).cu.computedCode
    netCatchTimer := s.cu.netCatchTimer.resume (s.rs.constants.netCatchTimeout * 100) } := by
  have hrecord : ∀ c u, State.recordIn { recomputeCode s with cu := c, hu := u } .chamber = s.recordIn .chamber :=
    fun _ _ => recomputeCode_recordIn s .chamber
  rw [resumeDrive_computedCode, resumeDrive, syncDv_eq]
  dsimp only
  rw [hrecord, recomputeCode_cu]
  simp [h]

theorem resumeDrive_hu (s : State) : (resumeDrive s).hu = { s.hu with
    transferTimer := s.hu.transferTimer.resume (s.rs.constants.transferTimeout * 1000) } := by
  simp [resumeDrive]

theorem resumeDrive_frame (s : State) : OnlyChanges [.cu, .hu] s (resumeDrive s) := by
  refine ((recomputeCode_frame s).mono (by simp)).trans (fun k hk => ?_)
  cases k with
  | arbiter p => exact ⟨rfl, rfl, rfl⟩
  | link p => cases p <;> rfl
  | _ => first | rfl | simp at hk

theorem stopFalling_runs {s : State} (hn : s.nrstAsserted = false) (ht : s.mi.stop.timer.isRunning = true)
    (hp : s.mi.stop.pin = false) (hf : s.mi.stop.filtered = true)
    (hw : ¬ (s.WaitingRequest ∧ s.hu.reservation = none ∧ s.hu.tableHold = false)) :
    Runs (.stabilityTimerExpiry .stop) s (fun t =>
      t.mi.stop.filtered = false ∧
      (∀ b, s.recordIn .chamber = some b → b.stage = .forming →
        t.cu.computedCode = codeFor s.rs.constants b.recipe s.mf.d.value) ∧
      ((∀ b, s.recordIn .chamber = some b → b.stage ≠ .forming) → t.cu.computedCode = s.cu.computedCode) ∧
      t.cu = { s.cu with
        computedCode := t.cu.computedCode
        dvCode := driveCode false s.cu.lockout (s.recordIn .chamber).isSome t.cu.computedCode
        netCatchTimer := if s.cu.netCatchTimer = .suspended then .running (s.rs.constants.netCatchTimeout * 100)
          else s.cu.netCatchTimer } ∧
      t.hu = { s.hu with
        transferTimer := if s.hu.transferTimer = .suspended then .running (s.rs.constants.transferTimeout * 1000)
          else s.hu.transferTimer } ∧
      OnlyChanges [.mi, .cu, .hu] s t) := by
  let settled := s.modifyLevel .stop LevelLine.settle
  have hsettled : settled.mi.stop.filtered = false := hp
  have hquiet : evalGrant (resumeDrive settled) = resumeDrive settled := by
    refine evalGrant_of_not (fun ⟨hwait, hres, hhold, _⟩ => hw ?_)
    have hframe := resumeDrive_frame settled
    rw [resumeDrive_hu] at hres hhold
    refine ⟨(State.waitingRequest_congr ?_ ?_).mp hwait, hres, hhold⟩
    · exact State.recordIn_congr (congrArg BaleTable.bales (hframe .bt (by simp))) .chamber
    · rw [resumeDrive_hu]; rfl
  have hexec : exec (.stabilityTimerExpiry .stop) s = .next (refreshAttention (resumeDrive settled)) := by
    rw [← hquiet, ← stopFalling_eq]
    exact exec_stabilityTimerExpiry (i := .stop) hn ht hp hf
  refine .intro hexec ⟨?_, fun b hb hst => ?_, fun h => ?_, ?_, ?_, ?_⟩
  · rw [refreshAttention_mi, resumeDrive_frame settled .mi (by simp), hsettled]
  · exact recomputeCode_forming (s := settled) hb hst
  · show (recomputeCode settled).cu.computedCode = _
    rw [recomputeCode_not_forming (s := settled) h]
    rfl
  · rw [← Timer.resume_eq]
    exact resumeDrive_cu hsettled
  · rw [← Timer.resume_eq]
    exact resumeDrive_hu settled
  · rw [OnlyChanges_refreshAttention]
    exact ((s.modifyLevel_frame .stop _).mono (by simp)).trans ((resumeDrive_frame settled).mono (by simp))

/-- Settles O8: the two arrivals by what each does to CU and HU; no grant follows where none waits. -/
theorem stopRisingAndFalling : Obligations.StopRisingAndFalling :=
  ⟨fun _ => stopRising_runs, fun _ => stopFalling_runs⟩

end Sys2Proof.Machine
end

section
/-! Proofs. The closure of the table record (R22, R24): its report, its settings, the reservation released, and the grant
it may bring (R93); TABLE_LOADED falling (R127, R128). -/

namespace Sys2Proof.Machine

/-- A record closed, before its neighbours hear of it: the other records, its report offered, its STAGE settings. -/
def takeAway (z : Zone) (others : List Bale) (r : Report) (q : Nat) (s : State) : State :=
  setStageLatches z q { s with bt := { s.bt with bales := others }, rq := s.rq.offer r }

theorem State.HoldsIn.closeRecord_eq {s : State} {z : Zone} {older younger : List Bale} {b : Bale}
    (h : s.HoldsIn z older b younger) {reason : CloseReason} (hr : reason ≠ .reset) :
    Machine.closeRecord z reason s = closureNeighbours z b.seq reason
      (takeAway z (older ++ younger) (b.closedBy reason s.bt.runClock) b.seq s) := by
  rw [h.closeRecord, if_neg hr, takeAway]

theorem takeAway_hands (z : Zone) (others : List Bale) (r : Report) (q : Nat) {s : State}
    (hn : s.nrstAsserted = false) : Hands (stageSettings z q) s (takeAway z others r q s) :=
  (Hands.stage z q (s := { s with bt := { s.bt with bales := others }, rq := s.rq.offer r }) hn).congr rfl rfl

theorem takeAway_frame (z : Zone) (others : List Bale) (r : Report) (q : Nat) (s : State) :
    OnlyChanges (.bt :: .rq :: arbiters) s (takeAway z others r q s) :=
  ((OnlyChanges.of_bt_rq s { s.bt with bales := others } (s.rq.offer r)).mono (by simp)).trans
    ((setStageLatches_frame z q _).mono (by simp +contextual))

/-- A closure offers its report, whatever it brings (R157). -/
theorem State.HoldsIn.closeRecord_arrives {s : State} {z : Zone} {older younger : List Bale} {b : Bale}
    (h : s.HoldsIn z older b younger) {reason : CloseReason} (hr : reason ≠ .reset) :
    Arrives (b.closedBy reason s.bt.runClock) s.rq (Machine.closeRecord z reason s).rq := by
  rw [h.closeRecord_eq hr, closureNeighbours_rq]
  exact s.rq.arrives _

/-- What the closure of the record `q` on the table leaves for HU to evaluate (R24): the record taken away, the
reservation and the transfer timer released. -/
def clearTable (others : List Bale) (r : Report) (q : Nat) (s : State) : State :=
  let closed : State := takeAway .table others r q s
  { closed with hu := { closed.hu with reservation := none, transferTimer := .stopped } }

theorem State.HoldsIn.closeTable {s : State} {older younger : List Bale} {b : Bale}
    (h : s.HoldsIn .table older b younger) {reason : CloseReason} (hr : reason ≠ .reset) :
    Machine.closeRecord .table reason s =
      evalGrant (clearTable (older ++ younger) (b.closedBy reason s.bt.runClock) b.seq s) := by
  rw [h.closeRecord_eq hr, closureNeighbours, if_neg hr]
  rfl

theorem clearTable_hands (others : List Bale) (r : Report) (q : Nat) {s : State} (hn : s.nrstAsserted = false) :
    Hands (stageSettings .table q) s (clearTable others r q s) :=
  (takeAway_hands .table others r q hn).congr rfl rfl

theorem clearTable_frame (others : List Bale) (r : Report) (q : Nat) (s : State) :
    OnlyChanges (.bt :: .hu :: .rq :: arbiters) s (clearTable others r q s) :=
  ((takeAway_frame .table others r q s).mono (by simp +contextual [or_imp])).trans
    ((OnlyChanges.of_hu _ _).mono (by simp))

/-- The chamber's record is still there when the table's has gone. -/
theorem State.HoldsIn.clearTable_chamber {s : State} {older younger : List Bale} {b : Bale}
    (h : s.HoldsIn .table older b younger) (r : Report) (q : Nat) :
    (clearTable (older ++ younger) r q s).recordIn .chamber = s.recordIn .chamber := by
  obtain ⟨hl, hz, -⟩ := h
  have hb : inZone .chamber b = false := by simp [inZone, hz]
  simp [State.recordIn, clearTable, takeAway, hl, List.find?_append, hb]

/-- Nothing waits that the closure lets go, so HU grants nothing. -/
theorem State.HoldsIn.closeTable_quiet {s : State} {older younger : List Bale} {b : Bale}
    (h : s.HoldsIn .table older b younger) {reason : CloseReason} (hr : reason ≠ .reset) (hn : s.nrstAsserted = false)
    (hw : ¬ (s.WaitingRequest ∧ s.hu.tableHold = false ∧ s.mi.stop.filtered = false)) :
    BalesBecome (older ++ younger) s (Machine.closeRecord .table reason s) ∧
    (Machine.closeRecord .table reason s).hu = { s.hu with reservation := none, transferTimer := .stopped } ∧
    Hands (stageSettings .table b.seq) s (Machine.closeRecord .table reason s) ∧
    OnlyChanges (.bt :: .hu :: .rq :: arbiters) s (Machine.closeRecord .table reason s) := by
  have hquiet : Machine.closeRecord .table reason s =
      clearTable (older ++ younger) (b.closedBy reason s.bt.runClock) b.seq s := by
    rw [h.closeTable hr]
    refine evalGrant_of_not (fun ⟨hwait, _, hhold, hstop⟩ => hw ⟨?_, hhold, hstop⟩)
    exact (State.waitingRequest_congr (h.clearTable_chamber _ _) rfl).mp hwait
  rw [hquiet]
  exact ⟨rfl, rfl, clearTable_hands _ _ _ hn, clearTable_frame _ _ _ _⟩

/-- The oldest record closes on the table, and the NETTED record behind it, whose request nothing else holds back, is
granted within the closure (R93). -/
theorem State.HoldsIn.closeTable_grants {s : State} {b c : Bale} {rest : List Bale}
    (h : s.HoldsIn .table [] b (c :: rest)) (hz : ZonesFall s) {reason : CloseReason} (hr : reason ≠ .reset)
    (hn : s.nrstAsserted = false) (hc : c.stage = .netted) (hslot : s.hu.ejectSlot = some c.seq)
    (hhold : s.hu.tableHold = false) (hstop : s.mi.stop.filtered = false) :
    BalesBecome (c.granted s.bt.runClock :: rest) s (Machine.closeRecord .table reason s) ∧
    (Machine.closeRecord .table reason s).hu = s.hu.granted c.seq s.rs.constants ∧
    (Machine.closeRecord .table reason s).cu = { s.cu with dvCode := 0, baleFull := false } ∧
    Hands (stageSettings .table c.seq ++ [⟨.a, .ejectGrant, 0, c.seq⟩]) s (Machine.closeRecord .table reason s) ∧
    OnlyChanges (.bt :: .cu :: .hu :: .rq :: arbiters) s (Machine.closeRecord .table reason s) := by
  have hrest : ∀ x ∈ rest, x.stage.zone ≠ .chamber := by
    have hsplit := (hz.split (older := [b]) (by simpa using h.1)).2
    intro x hx e
    exact absurd (hsplit x hx) (by simp [e, Stage.zone_netted hc])
  have hclear := clearTable_hands (c :: rest) (b.closedBy reason s.bt.runClock) b.seq hn
  have hframe := clearTable_frame (c :: rest) (b.closedBy reason s.bt.runClock) b.seq s
  have hholds : (clearTable (c :: rest) (b.closedBy reason s.bt.runClock) b.seq s).HoldsIn .chamber [] c rest :=
    ⟨rfl, Stage.zone_netted hc, by simp⟩
  have hgrant : Machine.closeRecord .table reason s =
      Machine.grantEject true (clearTable (c :: rest) (b.closedBy reason s.bt.runClock) b.seq s) :=
    (h.closeTable hr).trans (evalGrant_of ⟨c, hholds.recordIn, hc, hslot⟩ rfl hhold hstop)
  obtain ⟨hbt, hhu, hcu, hhands, hgrantFrame⟩ := hholds.grantEject true hrest
  rw [hgrant]
  refine ⟨hbt, hhu, hcu, hclear.override (hhands hn) (by simp [stageSettings]), ?_⟩
  exact (hframe.mono (by simp [arbiters])).trans (hgrantFrame.mono (by simp +contextual [or_imp]))

/-! ### TABLE_LOADED falling -/

theorem Bale.fallen_zone (b : Bale) : b.fallen.stage.zone = b.stage.zone := by
  unfold Bale.fallen
  split <;> rfl

/-- A fall with a record on the table that is not EJECTING is its closure, UNCOMMANDED_TIP marked on a WRAPPED one. -/
theorem State.HoldsIn.tableLoadedFalling {s : State} {older younger : List Bale} {b : Bale}
    (h : s.HoldsIn .table older b younger) (he : b.stage ≠ .ejecting) :
    Machine.tableLoadedFalling s = Machine.closeRecord .table (if b.stage = .wrapping then .dropped else .done)
      (s.modifyRecord .table Bale.fallen) := by
  have hz : b.stage.zone = .table := h.2.1
  have hkept : b.stage ≠ .wrapped → s.modifyRecord .table Bale.fallen = s := fun hw =>
    State.modifyRecord_id _ (fun c hc => by
      rw [h.recordIn, Option.some.injEq] at hc
      rw [← hc, Bale.fallen, if_neg hw])
  have hmarked : b.stage = .wrapped → s.modifyRecord .table Bale.fallen =
      s.flagRecord .table (fun f => { f with uncommandedTip := true }) := fun hw => by
    rw [State.flagRecord, h.modifyRecord, h.modifyRecord, Bale.fallen, if_pos hw]
  rw [Machine.tableLoadedFalling, h.recordIn]
  cases hst : b.stage with
  | tipping => simp [hkept, hst]
  | wrapped => simp [hmarked, hst]
  | wrapping => simp [hkept, hst]
  | ejecting => exact absurd hst he
  | gathering | forming | netting | netted => simp [hst, Stage.zone] at hz

theorem tableLoadedFalling_ejecting {s : State} (h : ∀ b, s.recordIn .table = some b → b.stage = .ejecting) :
    tableLoadedFalling s = s := by
  unfold tableLoadedFalling
  split
  next b hb => rw [h b hb]
  next => rfl

theorem Bale.fallen_tag (b : Bale) : b.fallen.tag = b.tag := by
  unfold Bale.fallen
  split <;> rfl

/-- What a closure says after changes of the list alone it says from before them. -/
theorem BalesBecome.trans {l l' : List Bale} {s t u : State} (h : BalesBecome l s t) (h' : BalesBecome l' t u) :
    BalesBecome l' s u := by
  unfold BalesBecome at *
  rw [h', h]

/-- TABLE_LOADED's fall up to the closure: the filtered level taken, UNCOMMANDED_TIP marked on a WRAPPED record. -/
def markFall (s : State) : State := (s.modifyLevel .tableLoaded LevelLine.settle).modifyRecord .table Bale.fallen

@[simp] theorem markFall_na (s : State) : (markFall s).na = s.na := rfl
@[simp] theorem markFall_ledger (s : State) : (markFall s).ledger = s.ledger :=
  State.modifyRecord_ledger (s.modifyLevel .tableLoaded LevelLine.settle) .table Bale.fallen_tag

@[simp] theorem markFall_chamber (s : State) : (markFall s).recordIn .chamber = s.recordIn .chamber :=
  State.recordIn_modifyRecord_ne _ (by decide) _ (fun b hb => by
    rw [Bale.fallen_zone, State.recordIn_zone hb]; decide)

theorem markFall_frame (s : State) : OnlyChanges [.mi, .bt] s (markFall s) :=
  ((s.modifyLevel_frame .tableLoaded LevelLine.settle).mono (by simp)).trans
    ((State.modifyRecord_frame .table Bale.fallen _).mono (by simp))

theorem State.HoldsIn.markFall {s : State} {older younger : List Bale} {b : Bale}
    (h : s.HoldsIn .table older b younger) : (Machine.markFall s).HoldsIn .table older b.fallen younger :=
  State.HoldsIn.modified (s := s.modifyLevel .tableLoaded LevelLine.settle) h Bale.fallen (b.fallen_zone.trans h.2.1)

theorem State.HoldsIn.markFall_bales {s : State} {older younger : List Bale} {b : Bale}
    (h : s.HoldsIn .table older b younger) : BalesBecome (older ++ b.fallen :: younger) s (Machine.markFall s) := by
  rw [Machine.markFall,
    State.HoldsIn.modifyRecord (s := s.modifyLevel .tableLoaded LevelLine.settle) (b := b) h Bale.fallen]
  rfl

/-- Settles O11: the fall is the closure of the record on the table, with its report and, where one waits, its grant. -/
theorem tableLoadedFallingClosesTheBale : Obligations.TableLoadedFallingClosesTheBale := by
  intro s hn ht hp hf
  have hexec : exec (.stabilityTimerExpiry .tableLoaded) s = .next (refreshAttention
      (tableLoadedFalling (s.modifyLevel .tableLoaded LevelLine.settle))) :=
    exec_stabilityTimerExpiry (i := .tableLoaded) hn ht hp hf
  refine ⟨fun he => .intro hexec ?_, fun b younger hz hl hb he => ?_⟩
  · rw [OnlyChanges_refreshAttention,
      tableLoadedFalling_ejecting (s := s.modifyLevel .tableLoaded LevelLine.settle) he]
    exact s.modifyLevel_frame .tableLoaded _
  · have hs : s.HoldsIn .table [] b younger := ⟨hl, hb, by simp⟩
    have hm := hs.markFall
    have hreason : (if b.stage = .wrapping then CloseReason.dropped else .done) ≠ .reset := by split <;> decide
    have hfall := State.HoldsIn.tableLoadedFalling (s := s.modifyLevel .tableLoaded LevelLine.settle) hs he
    rw [hfall] at hexec
    refine .intro hexec ⟨hm.closeRecord_arrives hreason, fun hw => ?_, fun c rest hy hc hslot hhold hstop => ?_⟩
    · have hw' : ¬ ((markFall s).WaitingRequest ∧ (markFall s).hu.tableHold = false ∧
          (markFall s).mi.stop.filtered = false) := by
        rw [State.waitingRequest_congr (markFall_chamber s) rfl]; exact hw
      obtain ⟨hbt, hhu, hhands, hframe⟩ := hm.closeTable_quiet hreason hn hw'
      have hseq : b.fallen.seq = b.seq := congrArg Tag.seq b.fallen_tag
      rw [hseq] at hhands
      refine ⟨hs.markFall_bales.trans hbt, hhu, (hhands.congr (markFall_na s).symm rfl).refresh, ?_⟩
      rw [OnlyChanges_refreshAttention]
      exact ((markFall_frame s).mono (by simp)).trans (hframe.mono (by simp +contextual))
    · subst hy
      obtain ⟨hbt, hhu, hcu, hhands, hframe⟩ :=
        hm.closeTable_grants (hz.congr (markFall_ledger s)) hreason hn hc hslot hhold hstop
      refine ⟨hs.markFall_bales.trans hbt, hhu, hcu, (hhands.congr (markFall_na s).symm rfl).refresh, ?_⟩
      rw [OnlyChanges_refreshAttention]
      exact ((markFall_frame s).mono (by simp)).trans (hframe.mono (by simp +contextual))

end Sys2Proof.Machine
end

section
/-! Proofs. OPEN BALE and DUMP PRECHAMBER (R16 to R18). -/

namespace Sys2Proof.Machine

/-! ### The creation of a record (R11, R17) -/

/-- CU after a FORMING record entered the chamber: its code computed, the DV code and BALE_FULL in line (R15, R72). -/
theorem enterForming_cu {s : State} {b : Bale} (hb : s.recordIn .chamber = some b) (hst : b.stage = .forming) :
    (syncChamber (recomputeCode s)).cu = { s.cu with
      computedCode := codeFor s.rs.constants b.recipe s.mf.d.value
      dvCode := driveCode s.mi.stop.filtered s.cu.lockout true (codeFor s.rs.constants b.recipe s.mf.d.value)
      baleFull := fullFor (some b) s.mf.d.value } := by
  rw [syncChamber_eq, recomputeCode_recordIn, hb]
  dsimp only
  rw [recomputeCode_cu, recomputeCode_forming hb hst]
  simp

theorem ChamberBecomes.of_enterForming {s t : State} {b : Bale} (hb : t.recordIn .chamber = some b)
    (hst : b.stage = .forming) (hcu : t.cu = s.cu) (hmf : t.mf = s.mf) (hrs : t.rs = s.rs) :
    ChamberBecomes (some b) (codeFor s.rs.constants b.recipe s.mf.d.value) s.cu.netCatchTimer s
      (syncChamber (recomputeCode t)) := by
  rw [ChamberBecomes, enterForming_cu hb hst, hcu, hmf, hrs]
  simp

theorem syncChamber_frame (s : State) : OnlyChanges [.cu] s (syncChamber s) := by
  rw [syncChamber_eq]
  exact .of_cu s _

theorem openedBale_eq (s : State) (slot : Nat) (r : Recipe) :
    openedBale s slot r = newRecord s.bt.seqCounter slot r s.openingStage s.bt.runClock := by
  unfold openedBale newRecord State.openingStage
  cases s.recordIn .chamber <;> cases s.mi.tailgate.filtered <;> rfl

@[simp] theorem openedBale_stage (s : State) (slot : Nat) (r : Recipe) :
    (openedBale s slot r).stage = s.openingStage := by rw [openedBale_eq]; rfl

/-- The record of OPEN BALE appended, the counter stepped and the STAGE settings handed on; the neighbours come next. -/
def appendRecord (b : Bale) (s : State) : State :=
  setStageLatches b.stage.zone b.seq { s with bt := { s.bt with
    bales := s.bt.bales ++ [b]
    seqCounter := stepSeq (s.bt.bales.length + 2) ((s.bt.bales ++ [b]).map Bale.seq) s.bt.seqCounter } }

theorem createRecord_opening (slot : Nat) (r : Recipe) (s : State) :
    createRecord slot r s.openingStage s =
      stageNeighbours s.openingStage s.bt.seqCounter (appendRecord (openedBale s slot r) s) := by
  rw [openedBale_eq]
  simp [createRecord, appendRecord, newRecord]

theorem appendRecord_hands (b : Bale) {s : State} (hn : s.nrstAsserted = false) :
    Hands (stageSettings b.stage.zone b.seq) s (appendRecord b s) := by
  unfold appendRecord
  exact (Hands.stage b.stage.zone b.seq hn).congr rfl rfl

theorem appendRecord_frame (b : Bale) (s : State) : OnlyChanges (.bt :: arbiters) s (appendRecord b s) :=
  (OnlyChanges.mono (.of_bt s _) (by simp)).trans ((setStageLatches_frame _ _ _).mono (by simp +contextual))

/-- The zone of the new record was empty, so it is the one found there. -/
theorem appendRecord_recordIn {b : Bale} {s : State} (h : s.recordIn b.stage.zone = none) :
    (appendRecord b s).recordIn b.stage.zone = some b :=
  State.HoldsIn.recordIn (older := s.bt.bales) (younger := []) ⟨rfl, rfl, State.recordIn_eq_none.mp h⟩

/-- The other zones are as they were. -/
theorem appendRecord_recordIn_ne {b : Bale} {z : Zone} (s : State) (h : b.stage.zone ≠ z) :
    (appendRecord b s).recordIn z = s.recordIn z := by
  have hb : inZone z b = false := by simpa [inZone] using h
  simp [State.recordIn, appendRecord, List.find?_append, hb]

/-- The counter after a creation holds a free value in its range, with at most two records live before (R11). -/
theorem appendRecord_counter_free {b : Bale} {s : State} (hb : b.seq = s.bt.seqCounter) (hlen : s.bt.bales.length ≤ 2)
    (hlo : 1 ≤ s.bt.seqCounter) (hhi : s.bt.seqCounter ≤ 65535) :
    (appendRecord b s).bt.seqCounter ∉ (appendRecord b s).bt.bales.map Bale.seq ∧
      1 ≤ (appendRecord b s).bt.seqCounter ∧ (appendRecord b s).bt.seqCounter ≤ 65535 := by
  have hfree := stepSeq_free ((s.bt.bales ++ [b]).map Bale.seq) (by simpa using by omega) s.bt.seqCounter hlo hhi
    (by simp [hb])
  rw [List.length_map, List.length_append] at hfree
  exact ⟨hfree, stepSeq_range _ _ _ hlo hhi⟩

/-- Where the next value is free the counter stops there (R11). -/
theorem appendRecord_counter_next {b : Bale} {s : State} (hb : b.seq = s.bt.seqCounter)
    (h : nextSeq s.bt.seqCounter ∉ s.bt.seqCounter :: s.bt.bales.map Bale.seq) :
    (appendRecord b s).bt.seqCounter = nextSeq s.bt.seqCounter := by
  have hnext : seqAfter s.bt.seqCounter ∉ (s.bt.bales ++ [b]).map Bale.seq := by
    rw [List.map_append, List.map_cons, List.map_nil, hb]
    simpa [seqAfter, nextSeq, or_comm] using h
  show stepSeq (s.bt.bales.length + 1 + 1) _ _ = _
  rw [stepSeq, if_neg (by simpa using hnext)]
  rfl

/-! ### OPEN BALE -/

/-- What OPEN BALE does with a valid slot and an empty prechamber, the taking of the request aside. -/
theorem createRecord_opens (slot : Nat) (r : Recipe) {s : State} (hn : s.nrstAsserted = false) :
    (createRecord slot r s.openingStage s).bt = (appendRecord (openedBale s slot r) s).bt ∧
    (s.openingStage = .forming →
      ChamberBecomes (some (openedBale s slot r)) (codeFor s.rs.constants r s.mf.d.value) s.cu.netCatchTimer s
        (createRecord slot r s.openingStage s)) ∧
    (s.openingStage = .gathering → DriveInv s → (createRecord slot r s.openingStage s).cu = s.cu) ∧
    Hands (stageSettings s.openingStage.zone s.bt.seqCounter) s (createRecord slot r s.openingStage s) ∧
    OnlyChanges (.bt :: .cu :: arbiters) s (createRecord slot r s.openingStage s) := by
  have hhands := appendRecord_hands (openedBale s slot r) hn
  have hframe := appendRecord_frame (openedBale s slot r) s
  rw [openedBale_stage] at hhands
  rw [createRecord_opening]
  refine ⟨stageNeighbours_bt _ _ _, fun hst => ?_, fun hst hd => ?_, hhands.congr rfl (stageNeighbours_na _ _ _), ?_⟩
  · have hchamber : s.recordIn .chamber = none := by
      rcases openingStage_cases s with h | ⟨-, h⟩
      · rw [h] at hst; cases hst
      · exact h
    have hb : (appendRecord (openedBale s slot r) s).recordIn .chamber = some (openedBale s slot r) := by
      have := appendRecord_recordIn (b := openedBale s slot r) (s := s)
      rw [openedBale_stage, hst] at this
      exact this hchamber
    rw [hst]
    exact .of_enterForming hb (by rw [openedBale_stage, hst]) rfl rfl rfl
  · rw [hst]
    show (syncChamber (appendRecord (openedBale s slot r) s)).cu = s.cu
    rw [hd.syncChamber (t := appendRecord (openedBale s slot r) s) rfl rfl rfl
      (appendRecord_recordIn_ne s (by rw [openedBale_stage, hst]; decide))]
    rfl
  · refine (hframe.mono (by simp +contextual)).trans ?_
    rcases openingStage_cases s with h | ⟨h, -⟩ <;> rw [h]
    · exact (syncChamber_frame _).mono (by simp)
    · exact ((recomputeCode_frame _).trans (syncChamber_frame _)).mono (by simp)

/-- OPEN BALE past its first two checks, by the contents of the slot (R16). -/
theorem cmdOpenBale_slot {p : Port} {pl : List Byte} {s : State} {x : RecipeSlot} (hslot : nat1 pl 0 ≤ 7)
    (hx : s.rs.slots[nat1 pl 0]? = some x) (hs : s.mi.stop.filtered = false) :
    cmdOpenBale p pl s =
      if x.valid = false then (s, refuse .invalidRecipe)
      else if (s.recordIn .pre).isSome then (s, refuse .occupied)
      else (createRecord (nat1 pl 0) x.recipe s.openingStage s,
        answer (byte2 s.bt.seqCounter ++ byte1 s.openingStage.code)) := by
  simp [cmdOpenBale, Nat.not_lt.mpr hslot, hs, hx]

/-! ### The request's taking changes nothing a bale command reads -/

@[simp] theorem beforeTake_openingStage (p : Port) (code : Byte) (s : State) :
    (beforeTake p code s).openingStage = s.openingStage := by simp [State.openingStage]

@[simp] theorem beforeTake_openedBale (p : Port) (code : Byte) (s : State) (slot : Nat) (r : Recipe) :
    openedBale (beforeTake p code s) slot r = openedBale s slot r := by simp [openedBale_eq]

theorem DriveInv.beforeTake {s : State} (h : DriveInv s) (p : Port) (code : Byte) :
    DriveInv (Machine.beforeTake p code s) :=
  h.congr (by simp) (by simp) (by simp) (by simp) (by simpa using h.2.2)

theorem nat1_single (n : Byte) : nat1 [n] 0 = n.toNat := rfl

/-! ### The statement -/

theorem openBale_refused {n : Byte} {s : State} {st : Status} (hn : s.nrstAsserted = false)
    (h : ∀ u : State, u = beforeTake .a Command.openBale.byte s → cmdOpenBale .a [n] u = (u, refuse st)) :
    Runs (.openBale .a [n]) s (Refused .a .openBale st s) :=
  refused_of (c := .openBale) rfl hn rfl rfl (h _ rfl)

theorem dumpPrechamber_refused {s : State} {st : Status} (hn : s.nrstAsserted = false)
    (h : ∀ u : State, u = beforeTake .a Command.dumpPrechamber.byte s → cmdDumpPrechamber .a [] u = (u, refuse st)) :
    Runs (.dumpPrechamber .a []) s (Refused .a .dumpPrechamber st s) :=
  refused_of (c := .dumpPrechamber) rfl hn rfl rfl (h _ rfl)

/-- OPEN BALE carried out: the record, the counter, CU, the settings and the response. -/
theorem openBale_opens {n : Byte} {s : State} {x : RecipeSlot} (hn : s.nrstAsserted = false) (hslot : n.toNat ≤ 7)
    (hx : s.rs.slots[n.toNat]? = some x) (hs : s.mi.stop.filtered = false) (hv : x.valid = true)
    (hp : s.recordIn .pre = none) :
    Runs (.openBale .a [n]) s (fun t =>
      t.bt.bales = s.bt.bales ++ [openedBale s n.toNat x.recipe] ∧
      (s.bt.bales.length ≤ 2 → 1 ≤ s.bt.seqCounter → s.bt.seqCounter ≤ 65535 →
        t.bt.seqCounter ∉ t.bt.bales.map Bale.seq ∧ 1 ≤ t.bt.seqCounter ∧ t.bt.seqCounter ≤ 65535) ∧
      (nextSeq s.bt.seqCounter ∉ s.bt.seqCounter :: s.bt.bales.map Bale.seq →
        t.bt.seqCounter = nextSeq s.bt.seqCounter) ∧
      t.bt.runClock = s.bt.runClock ∧
      ((openedBale s n.toNat x.recipe).stage = .forming →
        ChamberBecomes (some (openedBale s n.toNat x.recipe))
          (codeFor s.rs.constants x.recipe s.mf.d.value) s.cu.netCatchTimer s t) ∧
      ((openedBale s n.toNat x.recipe).stage = .gathering → DriveInv s → t.cu = s.cu) ∧
      Hands (stageSettings (openedBale s n.toNat x.recipe).stage.zone s.bt.seqCounter) s t ∧
      Answered .a .openBale .ok
        (byte2 s.bt.seqCounter ++ byte1 (openedBale s n.toNat x.recipe).stage.code) t ∧
      OnlyChanges (.bt :: .cu :: .link .a :: arbiters) s t) := by
  let u := beforeTake .a Command.openBale.byte s
  have hcmd : ownBlock .openBale .a [n] u =
      (createRecord n.toNat x.recipe u.openingStage u,
        answer (byte2 s.bt.seqCounter ++ byte1 s.openingStage.code)) := by
    have h := cmdOpenBale_slot (p := .a) (pl := [n]) (s := u) hslot (x := x) (by simpa [u, nat1_single] using hx)
      (by simpa [u] using hs)
    simpa [u, hv, hp, nat1_single, ownBlock] using h
  obtain ⟨hbt, hforming, hgathering, hhands, hframe⟩ :=
    createRecord_opens n.toNat x.recipe (s := u) (by simpa [u] using hn)
  have hseq : (openedBale u n.toNat x.recipe).seq = u.bt.seqCounter := rfl
  have hub : u.bt = s.bt := beforeTake_bt _ _ s
  have huo : openedBale u n.toNat x.recipe = openedBale s n.toNat x.recipe := beforeTake_openedBale _ _ s _ _
  have hus : u.openingStage = s.openingStage := beforeTake_openingStage _ _ s
  refine runs_of (c := .openBale) rfl hn rfl rfl hcmd ⟨?_, ?_, ?_, ?_, ?_, ?_, ?_, ?_, ?_⟩
  · rw [after_bt, hbt, huo]
    show u.bt.bales ++ _ = _
    rw [hub]
  · rw [after_bt, hbt, ← hub]
    exact appendRecord_counter_free hseq
  · rw [after_bt, hbt, ← hub]
    exact appendRecord_counter_next hseq
  · rw [after_bt, hbt]
    show u.bt.runClock = _
    rw [hub]
  · intro hst
    rw [openedBale_stage, ← hus] at hst
    simpa [u] using (hforming hst).request
  · intro hst hd
    rw [openedBale_stage, ← hus] at hst
    rw [after_cu, hgathering hst (hd.beforeTake _ _)]
    exact beforeTake_cu _ _ s
  · rw [openedBale_stage, ← hus, ← hub]
    exact hhands.request rfl
  · simp [Answered, answer, Command.byte]
  · exact (request_frame hframe).mono (by simp +contextual [or_imp])

/-- Settles O42: the checks one by one, then the creation, or the stage change into the empty chamber. -/
theorem openBaleAndDumpPrechamber : Obligations.OpenBaleAndDumpPrechamber := by
  refine ⟨fun n s hn hlen => ⟨fun hslot => ?_, fun x hx => ?_⟩,
    fun s hn => ⟨fun hp => ?_, fun older younger b hb => ?_⟩⟩
  · refine openBale_refused hn (fun u _ => ?_)
    simp [cmdOpenBale, nat1_single, hslot]
  · have hslot : n.toNat ≤ 7 := by
      have := (List.getElem?_eq_some_iff.mp hx).1
      omega
    have hread : ∀ u : State, u = beforeTake .a Command.openBale.byte s → s.mi.stop.filtered = false →
        cmdOpenBale .a [n] u = _ := fun u hu hs =>
      cmdOpenBale_slot (x := x) hslot (by rw [hu, nat1_single, beforeTake_rs]; exact hx) (by rw [hu, beforeTake_mi, hs])
    refine ⟨fun hs => ?_, fun hs hv => ?_, fun hs hv hp => ?_, fun hs hv hp => openBale_opens hn hslot hx hs hv hp⟩
    · refine openBale_refused hn (fun u hu => ?_)
      simp [cmdOpenBale, nat1_single, Nat.not_lt.mpr hslot, hu, hs]
    · exact openBale_refused hn (fun u hu => by rw [hread u hu hs, if_pos hv])
    · refine openBale_refused hn (fun u hu => ?_)
      rw [hread u hu hs, if_neg (by simp [hv]), if_pos (by rw [hu, beforeTake_recordIn]; exact hp)]
  · refine dumpPrechamber_refused hn (fun u hu => ?_)
    simp [cmdDumpPrechamber, hu, hp]
  · have hpre := hb.recordIn
    refine ⟨fun hc => ?_, fun hc ht => ?_, fun hc ht hs => ?_, fun hc ht hs => ?_⟩
    · exact dumpPrechamber_refused hn (fun u hu => by simp [cmdDumpPrechamber, hu, hpre, hc])
    · exact dumpPrechamber_refused hn (fun u hu => by simp [cmdDumpPrechamber, hu, hpre, hc, ht])
    · exact dumpPrechamber_refused hn (fun u hu => by simp [cmdDumpPrechamber, hu, hpre, hc, ht, hs])
    · let u := beforeTake .a Command.dumpPrechamber.byte s
      have hcmd : ownBlock .dumpPrechamber .a [] u = (enterStage .pre .forming u, answer (byte2 b.seq)) := by
        simp [ownBlock, cmdDumpPrechamber, u, hpre, hc, ht, hs]
      have hu : u.HoldsIn .pre older b younger := hb.beforeTake
      obtain ⟨hbt, hcu, hhands, hframe⟩ := hu.enterForming
        (fun y hy => State.recordIn_eq_none.mp hc y (by rw [hb.1]; simp [hy]))
      refine runs_of (c := .dumpPrechamber) rfl hn rfl rfl hcmd ⟨?_, ?_, ?_, ?_, ?_⟩
      · simpa [u] using hbt.request
      · simpa [u] using hcu.request
      · exact (hhands (by simpa [u] using hn)).request rfl
      · simp [Answered, answer, Command.byte]
      · exact (request_frame hframe).mono (by simp +contextual [or_imp])

end Sys2Proof.Machine
end

section
/-! Proofs. DISCARD BALE (R19): the reach of a port, the closure in each zone, the grant within it. -/

namespace Sys2Proof.Machine

/-! ### The closure of a record in each zone (R22, R24) -/

/-- In the prechamber a closure informs no neighbour. -/
theorem State.HoldsIn.closePre {s : State} {older younger : List Bale} {b : Bale} (h : s.HoldsIn .pre older b younger)
    {reason : CloseReason} (hr : reason ≠ .reset) (hn : s.nrstAsserted = false) :
    BalesBecome (older ++ younger) s (Machine.closeRecord .pre reason s) ∧
    Hands (stageSettings .pre b.seq) s (Machine.closeRecord .pre reason s) ∧
    OnlyChanges (.bt :: .rq :: arbiters) s (Machine.closeRecord .pre reason s) := by
  rw [h.closeRecord_eq hr]
  exact ⟨rfl, takeAway_hands _ _ _ _ hn, takeAway_frame _ _ _ _ _⟩

/-- What the closure of the chamber record `q` makes of a state it was taken away from (R24). -/
theorem closureNeighbours_chamber {s : State} (h : s.recordIn .chamber = none) (q : Nat) (reason : CloseReason) :
    closureNeighbours .chamber q reason s = { s with
      cu := { s.cu with dvCode := 0, baleFull := false, netCatchTimer := .stopped }
      hu := { s.hu with ejectSlot := if s.hu.ejectSlot = some q then none else s.hu.ejectSlot } } :=
  syncChamber_none (s := { s with
    cu := { s.cu with netCatchTimer := .stopped }
    hu := { s.hu with ejectSlot := if s.hu.ejectSlot = some q then none else s.hu.ejectSlot } }) h

/-- In the chamber a closure stops the drive and the net-catch timer, and drops the record's own request. -/
theorem State.HoldsIn.closeChamber {s : State} {older younger : List Bale} {b : Bale}
    (h : s.HoldsIn .chamber older b younger) (hz : ZonesFall s) {reason : CloseReason} (hr : reason ≠ .reset)
    (hn : s.nrstAsserted = false) :
    BalesBecome (older ++ younger) s (Machine.closeRecord .chamber reason s) ∧
    (Machine.closeRecord .chamber reason s).cu =
      { s.cu with dvCode := 0, baleFull := false, netCatchTimer := .stopped } ∧
    (Machine.closeRecord .chamber reason s).hu =
      { s.hu with ejectSlot := if s.hu.ejectSlot = some b.seq then none else s.hu.ejectSlot } ∧
    Hands (stageSettings .chamber b.seq) s (Machine.closeRecord .chamber reason s) ∧
    OnlyChanges (.bt :: .rq :: .cu :: .hu :: arbiters) s (Machine.closeRecord .chamber reason s) := by
  have hempty : (takeAway .chamber (older ++ younger) (b.closedBy reason s.bt.runClock) b.seq s).recordIn .chamber
      = none := by
    obtain ⟨holder, hyounger⟩ := hz.alone h
    refine State.recordIn_eq_none.mpr (fun x hx => ?_)
    exact (List.mem_append.mp hx).elim (holder x) (hyounger x)
  have hhands := takeAway_hands .chamber (older ++ younger) (b.closedBy reason s.bt.runClock) b.seq hn
  have hframe := takeAway_frame .chamber (older ++ younger) (b.closedBy reason s.bt.runClock) b.seq s
  rw [h.closeRecord_eq hr, closureNeighbours_chamber hempty]
  exact ⟨rfl, rfl, rfl, hhands.congr rfl rfl, (hframe.mono (by simp +contextual [or_imp])).trans
    ((OnlyChanges.of_cu_hu _ _ _).mono (by simp))⟩

/-- A closure that lets no request go, in whichever zone the record stood. -/
theorem State.HoldsIn.closeRecord_quiet {s : State} {z : Zone} {older younger : List Bale} {b : Bale}
    (h : s.HoldsIn z older b younger) (hz : ZonesFall s) {reason : CloseReason} (hr : reason ≠ .reset)
    (hn : s.nrstAsserted = false)
    (hw : ¬ (z = .table ∧ s.WaitingRequest ∧ s.hu.tableHold = false ∧ s.mi.stop.filtered = false)) :
    BalesBecome (older ++ younger) s (Machine.closeRecord z reason s) ∧
    Hands (stageSettings z b.seq) s (Machine.closeRecord z reason s) ∧
    (z = .pre → OnlyChanges (.bt :: .rq :: arbiters) s (Machine.closeRecord z reason s)) ∧
    (z = .chamber →
      (Machine.closeRecord z reason s).cu =
        { s.cu with dvCode := 0, baleFull := false, netCatchTimer := .stopped } ∧
      (Machine.closeRecord z reason s).hu =
        { s.hu with ejectSlot := if s.hu.ejectSlot = some b.seq then none else s.hu.ejectSlot } ∧
      OnlyChanges (.bt :: .rq :: .cu :: .hu :: arbiters) s (Machine.closeRecord z reason s)) ∧
    (z = .table →
      (Machine.closeRecord z reason s).hu = { s.hu with reservation := none, transferTimer := .stopped } ∧
      OnlyChanges (.bt :: .hu :: .rq :: arbiters) s (Machine.closeRecord z reason s)) := by
  cases z with
  | pre =>
    obtain ⟨hbt, hhands, hframe⟩ := h.closePre hr hn
    exact ⟨hbt, hhands, fun _ => hframe, nofun, nofun⟩
  | chamber =>
    obtain ⟨hbt, hcu, hhu, hhands, hframe⟩ := h.closeChamber hz hr hn
    exact ⟨hbt, hhands, nofun, fun _ => ⟨hcu, hhu, hframe⟩, nofun⟩
  | table =>
    obtain ⟨hbt, hhu, hhands, hframe⟩ := h.closeTable_quiet hr hn (fun hwait => hw ⟨rfl, hwait⟩)
    exact ⟨hbt, hhands, nofun, nofun, fun _ => ⟨hhu, hframe⟩⟩

/-! ### DISCARD BALE -/

theorem discardReach_iff (p : Port) (st : Stage) :
    discardReach p st = true ↔ (p = .a ∧ st.code ≤ 4) ∨ (p = .b ∧ 4 ≤ st.code) := by
  cases p <;> simp [discardReach]

theorem discardReason_ne_reset (st : Stage) : discardReason st ≠ .reset := by
  unfold discardReason
  split <;> decide

theorem closeReasonCode_discardReason (st : Stage) :
    closeReasonCode (some (discardReason st)) = if st = .ejecting then 4 else 2 := by
  unfold discardReason
  split <;> rfl

theorem Command.discardBale_permits {p : Port} (hp : p ≠ .c) : Command.discardBale.permits p = true := by
  cases p with
  | c => exact absurd rfl hp
  | _ => rfl

theorem discardBale_refused {p : Port} {hi lo : Byte} {s : State} {st : Status} (hn : s.nrstAsserted = false)
    (hp : p ≠ .c) (h : ∀ u : State, u = beforeTake p Command.discardBale.byte s →
      cmdDiscardBale p [hi, lo] u = (u, refuse st)) :
    Runs (.discardBale p [hi, lo]) s (Refused p .discardBale st s) :=
  refused_of (c := .discardBale) rfl hn (Command.discardBale_permits hp) rfl (h _ rfl)

/-- A record is EJECTING or later exactly if it stands on the table. -/
theorem Stage.zone_eq_table_iff (st : Stage) : st.zone = .table ↔ 4 ≤ st.code := by
  cases st <;> simp [Stage.zone, Stage.code]

/-- A discard within reach is the closure of the record, with `seq` and reason in the response (R19). -/
theorem discardBale_closes {p : Port} {hi lo : Byte} {s : State} {b : Bale} {after : State → Prop}
    (hn : s.nrstAsserted = false) (hp : p ≠ .c) (hb : s.recordOf (hi.toNat * 256 + lo.toNat) = some b)
    (hreach : (p = .a ∧ b.stage.code ≤ 4) ∨ (p = .b ∧ 4 ≤ b.stage.code))
    (h : ∀ r : Response,
      r = ⟨Command.discardBale.byte, answer (byte2 b.seq ++ byte1 (if b.stage = .ejecting then 4 else 2))⟩ →
      after (refreshAttention (deliver p r
        (closeRecord b.stage.zone (discardReason b.stage) (beforeTake p Command.discardBale.byte s))))) :
    Runs (.discardBale p [hi, lo]) s after := by
  have hfound : (beforeTake p Command.discardBale.byte s).recordOf (nat2 [hi, lo] 0) = some b :=
    (beforeTake_recordOf _ _ _ _).trans hb
  refine runs_of (c := .discardBale) rfl hn (Command.discardBale_permits hp) rfl ?_ (h _ rfl)
  simp only [ownBlock, cmdDiscardBale, hfound, (discardReach_iff p b.stage).mpr hreach,
    closeReasonCode_discardReason]
  rfl

/-- Settles O43: the refusals, then the closure by zone, and the closure of the table record that lets a request go. -/
theorem discardBale : Obligations.DiscardBale := by
  intro p hi lo s hn hp hz
  have hloses : s.loses p = false := by simp [State.loses, hp]
  have htake : takeBlocks p s = [.link p] := by simp [takeBlocks, hloses]
  let u := beforeTake p Command.discardBale.byte s
  have hnu : u.nrstAsserted = false := by simpa [u] using hn
  have hzu : ZonesFall u := hz.beforeTake
  refine ⟨fun hnone => discardBale_refused hn hp (fun u hu => ?_), fun b hb => ⟨fun hreach => ?_, ?_, ?_⟩⟩
  · have hnone' : u.recordOf (nat2 [hi, lo] 0) = none := by rw [hu, beforeTake_recordOf]; exact hnone
    simp [cmdDiscardBale, hnone']
  · refine discardBale_refused hn hp (fun u hu => ?_)
    have hfound : u.recordOf (nat2 [hi, lo] 0) = some b := by rw [hu, beforeTake_recordOf]; exact hb
    have hout : discardReach p b.stage = false := by
      rw [Bool.eq_false_iff, Ne, discardReach_iff]
      rcases hreach with ⟨rfl, h⟩ | ⟨rfl, h⟩ <;> simp <;> omega
    simp [cmdDiscardBale, hfound, hout]
  · intro hreach hw
    obtain ⟨older, younger, hl⟩ := bales_of_recordOf hb
    have hh : s.HoldsIn b.stage.zone older b younger := hz.holdsIn hl
    have hw' : ¬ (b.stage.zone = .table ∧ u.WaitingRequest ∧ u.hu.tableHold = false ∧ u.mi.stop.filtered = false) := by
      rw [State.waitingRequest_congr (s := s) (by simp [u]) (by simp [u])]
      simpa [u] using hw
    have harrives := hh.beforeTake.closeRecord_arrives (s := u) (discardReason_ne_reset b.stage)
    obtain ⟨hbt, hhands, hpre, hchamber, htable⟩ :=
      hh.beforeTake.closeRecord_quiet (s := u) hzu (discardReason_ne_reset b.stage) hnu hw'
    refine discardBale_closes hn hp hb hreach (fun r hr => ⟨⟨older, younger, hh, hbt.request⟩, ?_, ?_, ?_, ?_, ?_, ?_⟩)
    · simpa [u, discardReason] using harrives
    · exact hhands.request hloses
    · exact fun hzone => (request_frame (hpre hzone)).mono (by simp +contextual [htake, or_imp])
    · intro hzone
      obtain ⟨hcu, hhu, hframe⟩ := hchamber hzone
      exact ⟨by simpa [u] using hcu, by simpa [u] using hhu,
        (request_frame hframe).mono (by simp +contextual [htake, or_imp])⟩
    · intro hzone
      obtain ⟨hhu, hframe⟩ := htable hzone
      exact ⟨by simpa [u] using hhu, (request_frame hframe).mono (by simp +contextual [htake, or_imp])⟩
    · simp [Answered, hr, answer, Command.byte]
  · intro c rest hreach hl hc hslot hhold hstop
    have htable : b.stage.zone = .table := by
      rw [Stage.zone_eq_table_iff]
      rcases hreach with ⟨-, h⟩ | ⟨-, h⟩
      · simp [h, Stage.code]
      · exact h
    have hh : s.HoldsIn .table [] b (c :: rest) := ⟨hl, htable, by simp⟩
    have hreach' : (p = .a ∧ b.stage.code ≤ 4) ∨ (p = .b ∧ 4 ≤ b.stage.code) :=
      hreach.imp (fun ⟨ha, he⟩ => ⟨ha, by simp [he, Stage.code]⟩) id
    have hholds : u.HoldsIn .table [] b (c :: rest) := hh.beforeTake
    have harrives := hholds.closeRecord_arrives (discardReason_ne_reset b.stage)
    obtain ⟨hbt, hhu, hcu, hhands, hframe⟩ := hholds.closeTable_grants hzu (discardReason_ne_reset b.stage) hnu hc
      (by simpa [u] using hslot) (by simpa [u] using hhold) (by simpa [u] using hstop)
    refine discardBale_closes hn hp hb hreach' (fun r hr => ?_)
    rw [htable]
    refine ⟨?_, ?_, ?_, ?_, hhands.request hloses, ?_, ?_⟩
    · simpa [u] using hbt.request
    · simpa [u, discardReason] using harrives
    · simpa [u] using hhu
    · simpa [u] using hcu
    · simp [Answered, hr, answer, Command.byte]
    · exact (request_frame hframe).mono (by simp +contextual [htake, or_imp])

end Sys2Proof.Machine
end

section
/-! Proofs. Frames of the events: the parts of the state that a closure, a grant, an arrival and a pulse can touch. -/

namespace Sys2Proof.Machine

/-- The blocks that the records' events reach: BT, CU, HU, DS, RQ and the arbiters. -/
def recordBlocks : List Block := .bt :: .cu :: .hu :: .ds :: .rq :: arbiters

theorem State.modifyChannel_frame (s : State) (ch : Channel) (f : ChannelRecord → ChannelRecord) :
    OnlyChanges [.mf] s (s.modifyChannel ch f) := by
  intro k hk
  cases k with
  | arbiter p => exact ⟨rfl, rfl, rfl⟩
  | link p => cases p <;> rfl
  | _ => first | rfl | simp at hk

theorem evalGrant_frame (s : State) : OnlyChanges recordBlocks s (evalGrant s) := by
  intro k hk
  cases k with
  | arbiter p => cases p <;> simp [recordBlocks, arbiters] at hk
  | link p => cases p <;> simp [Block.same]
  | _ => first | simp [Block.same]; done | simp [recordBlocks] at hk

theorem closeRecord_frame (z : Zone) (reason : CloseReason) (s : State) :
    OnlyChanges recordBlocks s (closeRecord z reason s) := by
  intro k hk
  cases k with
  | arbiter p => cases p <;> simp [recordBlocks, arbiters] at hk
  | link p => cases p <;> simp [Block.same]
  | _ => first | simp [Block.same]; done | simp [recordBlocks] at hk

/-- A setting reaches an arbiter, whichever port it is handed to. -/
theorem setLatch_records (p : Port) (src : Source) (i : Fin 4) (d : Nat) (s : State) :
    OnlyChanges recordBlocks s (setLatch p src i d s) :=
  (setLatch_frame p src i d s).mono (by cases p <;> simp [recordBlocks, arbiters])

theorem enterStage_records (z : Zone) (st : Stage) (s : State) : OnlyChanges recordBlocks s (enterStage z st s) :=
  (enterStage_frame z st s).mono (by simp +contextual [recordBlocks, or_imp])

theorem State.modifyRecord_records (z : Zone) (f : Bale → Bale) (s : State) :
    OnlyChanges recordBlocks s (s.modifyRecord z f) :=
  (State.modifyRecord_frame z f s).mono (by simp [recordBlocks])

theorem arriveCoverage_frame (b : Bale) (s : State) : OnlyChanges recordBlocks s (arriveCoverage b s) := by
  have hflag : OnlyChanges recordBlocks s
      (if b.moistureMean = none then s.flagRecord .table (fun f => { f with moistureUnknown := true }) else s) := by
    split
    · exact State.modifyRecord_records _ _ s
    · exact .refl _ _
  unfold arriveCoverage
  dsimp only
  split
  · exact hflag.trans ((enterStage_records _ _ _).trans (setLatch_records _ _ _ _ _))
  · exact hflag.trans ((State.modifyRecord_records _ _ _).trans (enterStage_records _ _ _))

theorem tableLoadedRising_frame (s : State) : OnlyChanges recordBlocks s (tableLoadedRising s) := by
  have hunexpected : OnlyChanges recordBlocks s (unexpectedLoad s) := setLatch_records _ _ _ _ _
  unfold tableLoadedRising
  split
  · split
    · refine OnlyChanges.trans ?_ (arriveCoverage_frame _ _)
      exact ((OnlyChanges.of_hu s _).mono (by simp [recordBlocks])).trans (setLatch_records _ _ _ _ _)
    · exact hunexpected
  · exact hunexpected

theorem tableLoadedFalling_frame (s : State) : OnlyChanges recordBlocks s (tableLoadedFalling s) := by
  unfold tableLoadedFalling
  split
  · split
    · exact closeRecord_frame _ _ _
    · exact (State.modifyRecord_records _ _ s).trans (closeRecord_frame _ _ _)
    · exact closeRecord_frame _ _ _
    · exact .refl _ _
  · exact .refl _ _

/-- What a level's change is handed to touches the records, CU, HU, DS, RQ and the arbiters, and nothing else (R45,
R46). -/
theorem levelArrival_frame (i : LevelInput) (rising : Bool) (s : State) :
    OnlyChanges recordBlocks s (levelArrival i rising s) := by
  cases i with
  | tailgate => exact .refl _ _
  | stop =>
    cases rising
    · show OnlyChanges recordBlocks s (stopFalling s)
      rw [stopFalling_eq]
      exact ((resumeDrive_frame s).mono (by simp [recordBlocks])).trans (evalGrant_frame _)
    · exact (stopRising_frame s).mono (by simp [recordBlocks])
  | tableLoaded =>
    cases rising
    · exact tableLoadedFalling_frame s
    · exact tableLoadedRising_frame s

/-- A table pulse touches, beside the angle, what a lay touches. -/
theorem tablePulse_frame (s : State) :
    OnlyChanges recordBlocks (s.withAngle (angleAfter s.rs.constants.tablePulses s.mi.angle)) (tablePulse s) := by
  have hsilent := (stepSilences_frame (s.withAngle (angleAfter s.rs.constants.tablePulses s.mi.angle))).mono
    (many := recordBlocks) (by simp [recordBlocks, arbiters])
  unfold tablePulse
  dsimp only
  split
  · exact hsilent.trans ((layPosition_frame _ _).mono (by simp +contextual [recordBlocks, or_imp]))
  · exact hsilent

theorem tableIndex_frame (s : State) : OnlyChanges recordBlocks (s.withAngle 0) (tableIndex s) := by
  have hlaid := (layPosition_frame .one (s.withAngle 0)).mono
    (many := recordBlocks) (by simp +contextual [recordBlocks, or_imp])
  unfold tableIndex
  dsimp only
  split
  · exact hlaid.trans ((stepRevolution_frame _).mono (by simp +contextual [recordBlocks, or_imp]))
  · exact hlaid

end Sys2Proof.Machine
end

section
/-! Proofs. The zero debts (R34): what each change of a channel record makes of the debt, which rows reach the channels at
all, and that every step keeps the debts in range. -/

namespace Sys2Proof.Machine

/-! ### The debt of one channel (R34 to R39) -/

/-- The range is said of the debt and the running cycle alone. -/
theorem ChannelRecord.DebtInv.congr {c c' : ChannelRecord} (h : c.DebtInv) (hd : c'.debt = c.debt)
    (hz : c'.zeroing = c.zeroing) : c'.DebtInv := by
  unfold ChannelRecord.DebtInv
  rw [hd, hz]
  exact h

/-- With no debt and no cycle running the debt is in range. -/
theorem ChannelRecord.debtInv_of_idle {c : ChannelRecord} (hd : c.debt = 0) (hz : c.zeroing = false) : c.DebtInv := by
  simp [ChannelRecord.DebtInv, hd, hz]

/-- A cycle may begin above a debt of -8, so that its end stays in range (R36, R37). -/
theorem ChannelRecord.DebtInv.beginZero {c : ChannelRecord} (h : c.DebtInv) (hd : -7 ≤ c.debt) : c.beginZero.DebtInv :=
  ⟨h.1, h.2.1, fun _ => hd⟩

/-- The automatic start begins at a debt of 1 or more (R35). -/
theorem ChannelRecord.DebtInv.evalZero {c : ChannelRecord} (h : c.DebtInv) : c.evalZero.DebtInv := by
  unfold ChannelRecord.evalZero
  split
  next hc => exact h.beginZero (by omega)
  next => exact h

theorem ChannelRecord.DebtInv.endZero {c : ChannelRecord} (h : c.DebtInv) (hz : c.zeroing = true)
    (k : ChannelConstants) : (c.endZero k).DebtInv := by
  obtain ⟨-, hhi, hrun⟩ := h
  have hlo := hrun hz
  refine ⟨?_, ?_, fun e => by cases e⟩ <;> simp only [ChannelRecord.endZero] <;> omega

theorem ChannelRecord.DebtInv.releaseBy {c : ChannelRecord} (h : c.DebtInv) (p : Port) : (c.releaseBy p).DebtInv := by
  unfold ChannelRecord.releaseBy
  split
  · exact ChannelRecord.DebtInv.evalZero (h.congr rfl rfl)
  · exact h

/-- A zero-due expiry below a debt of 8 raises it by one (R34). -/
theorem ChannelRecord.DebtInv.fallDue {c : ChannelRecord} (h : c.DebtInv) (hd : c.debt < 8) (timer : Timer) :
    ChannelRecord.DebtInv { c with debt := c.debt + 1, zeroDueTimer := timer } := by
  obtain ⟨hlo, -, hrun⟩ := h
  refine ⟨?_, ?_, fun e => ?_⟩
  · dsimp only; omega
  · dsimp only; omega
  · have := hrun e
    dsimp only
    omega

/-! ### The debts of all channels -/

theorem DebtInv.congr {s t : State} (h : DebtInv s) (e : t.mf = s.mf) : DebtInv t := fun ch => by
  rw [e]
  exact h ch

theorem DebtInv.modifyChannel {s : State} (h : DebtInv s) {ch : Channel} {f : ChannelRecord → ChannelRecord}
    (hf : (f (s.mf.get ch)).DebtInv) : DebtInv (s.modifyChannel ch f) := by
  intro c
  simp only [State.modifyChannel, PerChannel.get_set]
  split
  · exact hf
  · exact h c

theorem DebtInv.zeroDueExpiry {s : State} (h : DebtInv s) (ch : Channel) : DebtInv (zeroDueExpiry ch s) := by
  have hc := h ch
  unfold Machine.zeroDueExpiry
  split
  · exact h
  split
  next hd => exact h.modifyChannel (hc.fallDue hd _).evalZero
  next hd =>
    split
    · refine DebtInv.congr (h.modifyChannel (ch := ch) ?_) (setLatchAll_mf _ _ _ _)
      exact ChannelRecord.DebtInv.beginZero (hc.congr rfl rfl) (by dsimp only; omega)
    · exact h.modifyChannel (hc.congr rfl rfl)

theorem DebtInv.autoZeroCompletion {s : State} (h : DebtInv s) (ch : Channel) : DebtInv (autoZeroCompletion ch s) := by
  unfold Machine.autoZeroCompletion
  split
  · exact h
  next hz => exact h.modifyChannel ((h ch).endZero (by simpa using fun e => hz (.inr e)) _)

@[simp] theorem handOff_mf (ch : Channel) (value : Nat) (s : State) : (handOff ch value s).mf = s.mf := by
  cases ch with
  | p =>
    simp only [handOff, usePressure, syncDv_mf]
    split <;> rfl
  | d => simp [handOff, useDiameter]
  | m => rfl

theorem DebtInv.conversionCompletion {s : State} (h : DebtInv s) (ch : Channel) (raw : Int) :
    DebtInv (conversionCompletion ch raw s) := by
  unfold Machine.conversionCompletion
  split
  · exact h
  · have hstored : DebtInv (s.modifyChannel ch (·.convert (s.rs.chan.get ch) (channelTop ch) raw)) :=
      h.modifyChannel ((h ch).congr rfl rfl)
    have hhanded := fun value => hstored.congr (handOff_mf ch value _)
    exact (hhanded _).modifyChannel (hhanded _ ch).evalZero

/-! ### Resets -/

theorem powerOn_debts (straps : Straps) (s : State) : DebtInv (powerOn straps s) := fun ch => by
  cases ch <;> exact ChannelRecord.debtInv_of_idle rfl rfl

theorem assertReset_debts (s : State) : DebtInv (assertReset s) := fun ch => by
  cases ch <;> exact ChannelRecord.debtInv_of_idle rfl rfl

theorem DebtInv.releaseReset {s : State} (h : DebtInv s) (straps : Straps) :
    DebtInv (releaseReset straps s) := fun ch => by
  cases ch
  · exact (h .p).congr rfl rfl
  · exact (h .d).congr rfl rfl
  · exact (h .m).congr rfl rfl

/-! ### Events that reach no channel -/

theorem tablePulse_mf (s : State) : (tablePulse s).mf = s.mf :=
  tablePulse_frame s .mf (by simp [recordBlocks, arbiters])

theorem tableIndex_mf (s : State) : (tableIndex s).mf = s.mf :=
  tableIndex_frame s .mf (by simp [recordBlocks, arbiters])

theorem baleRoll_mf (s : State) : (baleRoll s).mf = s.mf := by
  unfold baleRoll
  split <;> rfl

theorem netRoll_mf (s : State) : (netRoll s).mf = s.mf := by
  show (meterNet s).mf = s.mf
  unfold meterNet
  split
  · split
    · dsimp only
      split
      · simp [completeNetting]
      · rfl
    · rfl
  · rfl

theorem stabilityExpiry_mf (i : LevelInput) (s : State) : (stabilityExpiry i s).mf = s.mf := by
  unfold stabilityExpiry
  dsimp only
  split
  · rfl
  split
  · exact State.modifyLevel_mf s i _
  · exact (levelArrival_frame _ _ _ .mf (by simp [recordBlocks, arbiters])).trans (State.modifyLevel_mf s i _)

theorem netCatchExpiry_mf (s : State) : (netCatchExpiry s).mf = s.mf := by
  unfold netCatchExpiry
  split
  · split
    · simp
    · rfl
  · rfl

theorem transferExpiry_mf (s : State) : (transferExpiry s).mf = s.mf := by
  unfold transferExpiry
  split
  · split
    · simp
    · rfl
  · rfl

/-! ### Requests -/

theorem acknowledge_mf (p : Port) (src : Source) (i : Fin 4) (s : State) : (acknowledge p src i s).1.mf = s.mf := by
  unfold acknowledge
  dsimp only
  split <;> rfl

theorem readBaleImage_mf (p : Port) (found : Option Bale) (s : State) : (readBaleImage p found s).1.mf = s.mf := by
  cases found with
  | none => rfl
  | some b => exact State.setImage_mf s p _

theorem cmdSetMachine_mf (p : Port) (pl : List Byte) (s : State) : (cmdSetMachine p pl s).1.mf = s.mf := by
  have hchannel : ∀ ch group, (setChannelGroup ch group pl s).1.mf = s.mf := fun ch group => by
    unfold setChannelGroup
    dsimp only
    split <;> rfl
  have hconstants : (setConstantsGroup pl s).1.mf = s.mf := by
    unfold setConstantsGroup applyConstants
    dsimp only
    split <;> rfl
  unfold cmdSetMachine
  dsimp only
  (repeat' split) <;> first | rfl | exact hchannel _ _ | exact hconstants

/-- The commands of chapter 2 and PORT RESET, which changes the hold sets, reach the channels; no other command does. -/
def Command.reachesChannels : Command → Bool
  | .holdZero => true
  | .releaseZero => true
  | .prezero => true
  | .portReset => true
  | _ => false

theorem ownBlock_mf (c : Command) (p : Port) (pl : List Byte) (s : State) (hc : c.reachesChannels = false) :
    (ownBlock c p pl s).1.mf = s.mf := by
  cases c with
  | holdZero | releaseZero | prezero | portReset => cases hc
  | identify | readStatus | takeNotice | setNoticePlan | readStock | holdTable => rfl
  | setMachine => exact cmdSetMachine_mf p pl s
  | ackNotice =>
    simp only [ownBlock, cmdAckNotice]
    split
    · exact acknowledge_mf _ _ _ _
    · rfl
  | ackCurrent =>
    simp only [ownBlock, cmdAckCurrent]
    split
    · exact acknowledge_mf _ _ _ _
    · rfl
  | readBale =>
    simp only [ownBlock, cmdReadBale]
    (repeat' split) <;> first | rfl | exact readBaleImage_mf _ _ _
  | freeTable => exact evalGrant_mf _
  | readNext => simp only [ownBlock, cmdReadNext]; (repeat' split) <;> simp
  | readLinkStats => simp only [ownBlock, cmdReadLinkStats]; (repeat' split) <;> simp
  | readChannel => simp only [ownBlock, cmdReadChannel]; split <;> rfl
  | openBale => simp only [ownBlock, cmdOpenBale]; (repeat' split) <;> simp
  | dumpPrechamber => simp only [ownBlock, cmdDumpPrechamber]; (repeat' split) <;> simp
  | netStart => simp only [ownBlock, cmdNetStart]; (repeat' split) <;> simp
  | netAbort => simp only [ownBlock, cmdNetAbort]; (repeat' split) <;> simp
  | requestEject => simp only [ownBlock, cmdRequestEject, placeRequest]; (repeat' split) <;> simp
  | cancelEject => simp only [ownBlock, cmdCancelEject, withdrawRequest]; (repeat' split) <;> simp
  | discardBale => simp only [ownBlock, cmdDiscardBale]; (repeat' split) <;> simp
  | tip => simp only [ownBlock, cmdTip, flagForcedTip]; (repeat' split) <;> simp
  | abandonWrap => simp only [ownBlock, cmdAbandonWrap]; split <;> simp
  | restoreDispenser => simp only [ownBlock, cmdRestoreDispenser]; (repeat' split) <;> rfl
  | withdrawDispenser => simp only [ownBlock, cmdWithdrawDispenser]; split <;> rfl
  | loadRecipe => simp only [ownBlock, cmdLoadRecipe]; split <;> rfl
  | readRecipe => simp only [ownBlock, cmdReadRecipe, takeImage]; split <;> simp
  | readMachine => simp only [ownBlock, cmdReadMachine]; (repeat' split) <;> rfl
  | newRoll => simp only [ownBlock, cmdNewRoll]; (repeat' split) <;> rfl
  | fetchReport => simp only [ownBlock, cmdFetchReport, takeImage]; split <;> simp
  | releaseReport => simp only [ownBlock, cmdReleaseReport]; (repeat' split) <;> rfl
  | queueStatus => simp only [ownBlock, cmdQueueStatus]; split <;> rfl

/-- PORT RESET releases the port's hold of every channel (R42). -/
theorem cmdPortReset_mf (p : Port) (pl : List Byte) (s : State) (ch : Channel) :
    (cmdPortReset p pl s).1.mf.get ch = (s.mf.get ch).releaseBy p := by
  have hreset : (resetNotices p (resetLink p s)).mf = s.mf := by simp
  cases ch <;> simp only [cmdPortReset, releaseHolds, hreset, PerChannel.get]

theorem DebtInv.cmdPortReset {s : State} (h : DebtInv s) (p : Port) (pl : List Byte) :
    DebtInv (cmdPortReset p pl s).1 := fun ch => by
  rw [cmdPortReset_mf]
  exact (h ch).releaseBy p

/-- PREZERO begins a cycle above a debt of -8 alone (R39). -/
theorem DebtInv.cmdPrezero {s : State} (h : DebtInv s) (p : Port) (pl : List Byte) :
    DebtInv (cmdPrezero p pl s).1 := by
  unfold Machine.cmdPrezero
  split
  · exact h
  split
  · exact h
  split
  · exact h
  next hd => exact h.modifyChannel ((h _).beginZero (by omega))

theorem DebtInv.ownBlock {s : State} (h : DebtInv s) (c : Command) (p : Port) (pl : List Byte) :
    DebtInv (ownBlock c p pl s).1 := by
  cases hc : c.reachesChannels with
  | false => exact h.congr (ownBlock_mf c p pl s hc)
  | true =>
    cases c with
    | holdZero =>
      simp only [Machine.ownBlock, cmdHoldZero]
      split
      · exact h
      · exact h.modifyChannel ((h _).congr rfl rfl)
    | releaseZero =>
      simp only [Machine.ownBlock, cmdReleaseZero]
      split
      · exact h
      · exact h.modifyChannel ((h _).releaseBy p)
    | prezero => exact h.cmdPrezero p pl
    | portReset => exact h.cmdPortReset p pl
    | _ => cases hc

theorem DebtInv.takeRequest {s : State} (h : DebtInv s) (p : Port) (code : Byte) (pl : List Byte) :
    DebtInv (takeRequest p code pl s) := by
  have hbefore : DebtInv (beforeTake p code s) := h.congr (beforeTake_mf p code s)
  have hcarried : DebtInv (carryOutCode p code pl (beforeTake p code s)).1 := by
    unfold carryOutCode carryOut
    (repeat' split) <;> first | exact hbefore | exact hbefore.ownBlock _ p pl
  unfold Machine.takeRequest
  split
  · exact h
  · exact hcarried.congr (deliver_mf _ _ _)

/-! ### The wire -/

@[simp] theorem setReceiver_mf (l : LinePort) (rx : Receiver) (s : State) : (setReceiver l rx s).mf = s.mf :=
  State.modifyLine_mf _ _ _

@[simp] theorem abandonFrame_mf (l : LinePort) (s : State) : (abandonFrame l s).mf = s.mf := by
  unfold abandonFrame
  split <;> simp

theorem DebtInv.handleGood {s : State} (h : DebtInv s) (l : LinePort) (r : Request) : DebtInv (handleGood l r s) := by
  unfold Machine.handleGood
  split
  · exact h.takeRequest _ _ _
  · split <;> exact h.congr (by simp)

theorem DebtInv.afterAppend {s : State} (h : DebtInv s) (l : LinePort) (chars : List Byte) (damaged : Bool) :
    DebtInv (afterAppend l chars damaged s) := by
  have hdozing : DebtInv (setReceiver l .dozing s) := h.congr (setReceiver_mf _ _ _)
  unfold Machine.afterAppend completeFrame
  split
  · exact h.congr (by simp)
  split
  · split
    · exact hdozing.congr (by simp)
    split
    · exact hdozing.congr (by simp)
    · exact hdozing.handleGood l _
  · exact h.congr (by simp)

theorem addressCharacter_mf (l : LinePort) (data : Byte) (stopError : Bool) (s : State) :
    (addressCharacter l data stopError s).mf = s.mf := by
  unfold addressCharacter
  (repeat' split) <;> simp

theorem DebtInv.dataCharacter {s : State} (h : DebtInv s) (l : LinePort) (data : Byte) (stopError : Bool) :
    DebtInv (dataCharacter l data stopError s) := by
  unfold Machine.dataCharacter
  split
  · exact h
  split
  · exact h
  · exact h.afterAppend _ _ _

theorem interCharacterTimeout_mf (l : LinePort) (s : State) : (interCharacterTimeout l s).mf = s.mf := by
  unfold interCharacterTimeout
  split <;> simp

theorem DebtInv.transmissionCompletion {s : State} (h : DebtInv s) (l : LinePort) :
    DebtInv (transmissionCompletion l s) := by
  unfold Machine.transmissionCompletion
  split
  · exact h
  split
  · exact h
  · exact h.congr (by simp)
  · exact DebtInv.takeRequest (h.congr (State.modifyLine_mf _ _ _)) _ _ _

theorem DebtInv.writeTransaction {s : State} (h : DebtInv s) (write : WriteTransfer) :
    DebtInv (writeTransaction write s) := by
  rcases writeTransaction_cases write s with ⟨-, hw⟩ | ⟨-, hw⟩ <;> rw [hw]
  · exact h.congr rfl
  · have hwires : DebtInv (s.onWires (writeAcks write.bytes.length) []) := h.congr rfl
    rcases decideWrite_cases write.bytes (s.onWires (writeAcks write.bytes.length) []) with
      ⟨-, hd⟩ | ⟨-, -, hd⟩ | ⟨-, -, -, hd⟩ | ⟨-, -, -, hd⟩ <;> rw [hd]
    · exact hwires
    · exact hwires.congr (countTargetError_mf _ _)
    · exact hwires.congr (countTargetError_mf _ _)
    · exact hwires.takeRequest _ _ _

theorem readTransaction_mf (read : ReadTransfer) (s : State) : (readTransaction read s).mf = s.mf := by
  rcases readTransaction_cases read s with ⟨-, hr⟩ | ⟨-, hr⟩ <;> rw [hr] <;> rfl

/-! ### Every row -/

/-- A row that leaves the state as it is under a condition keeps what it keeps otherwise. -/
theorem DebtInv.ite {s t : State} {c : Prop} [Decidable c] (hs : DebtInv s) (ht : DebtInv t) :
    DebtInv (if c then s else t) := by
  split
  · exact hs
  · exact ht

theorem exec_debts (i : Instr) {s t : State} (h : DebtInv s) (he : exec i s = .next t) : DebtInv t := by
  cases hr : requestRow i with
  | some row =>
    obtain ⟨p, code, pl⟩ := row
    rw [exec_requestRow s hr] at he
    cases he
    exact h.takeRequest p code pl
  | none =>
    cases i with
    | powerOnReset straps => cases he; exact powerOn_debts straps s
    | pinResetAssertion => cases he; exact assertReset_debts s
    | pinResetRelease straps => cases he; exact DebtInv.ite (h.releaseReset straps) h
    | runClockTick => cases he; exact h.congr rfl
    | pdmOutputSlot => cases he; exact h.congr rfl
    | levelPinChange input asserted => cases he; exact h.congr (State.modifyLevel_mf _ _ _)
    | stabilityTimerExpiry input => cases he; exact h.congr (stabilityExpiry_mf input s)
    | tablePulse => cases he; exact h.ite (h.congr (tablePulse_mf s))
    | tableIndex => cases he; exact h.ite (h.congr (tableIndex_mf s))
    | baleRoll => cases he; exact h.ite (h.congr (baleRoll_mf s))
    | netRoll => cases he; exact h.ite (h.congr (netRoll_mf s))
    | filmPulse k => cases he; exact h.ite (h.congr rfl)
    | conversionCompletion ch raw => cases he; exact h.conversionCompletion ch raw
    | zeroDueExpiry ch => cases he; exact h.zeroDueExpiry ch
    | autoZeroCompletion ch => cases he; exact h.autoZeroCompletion ch
    | netCatchExpiry => cases he; exact h.congr (netCatchExpiry_mf s)
    | transferTimerExpiry => cases he; exact h.congr (transferExpiry_mf s)
    | addressCharacter l data stopError => cases he; exact h.congr (addressCharacter_mf l data stopError s)
    | dataCharacter l data stopError => cases he; exact h.dataCharacter l data stopError
    | interCharacterTimeout l => cases he; exact h.congr (interCharacterTimeout_mf l s)
    | responseTransmissionCompletion l => cases he; exact h.transmissionCompletion l
    | writeTransaction write => cases he; exact h.writeTransaction write
    | readTransaction read => cases he; exact h.congr (readTransaction_mf read s)
    | _ => cases hr

/-- Settles O54: a cycle runs at a debt of -7 or more only, which is what its end needs; every row keeps this. -/
theorem debtsStayInRange : Obligations.DebtsStayInRange := by
  intro s t hs hstep
  unfold step at hstep
  split at hstep
  · cases hstep; exact hs
  next c rest _ => exact exec_debts c (s := { s with pending := rest }) (hs.congr rfl) hstep

end Sys2Proof.Machine
end

section
/-! Proofs. What reaches the part under nRST (R42, R47, R202), and the level inputs' pins and stability timers (R43, R44,
R46). -/

namespace Sys2Proof.Machine

/-! ### Under nRST -/

/-- A row that reaches no block under nRST leaves the state as it is (log entry 4). -/
theorem exec_underReset {i : Instr} {s : State} (hn : s.nrstAsserted = true) (hi : silentUnderReset i = true) :
    exec i s = .next (refreshAttention s) := by
  cases hr : requestRow i with
  | some row =>
    obtain ⟨p, code, pl⟩ := row
    rw [exec_requestRow s hr, takeRequest, if_pos hn]
  | none =>
    cases i with
    | tablePulse => simp [exec, execTablePulse, hn]
    | tableIndex => simp [exec, execTableIndex, hn]
    | baleRoll => simp [exec, execBaleRoll, hn]
    | netRoll => simp [exec, execNetRoll, hn]
    | filmPulse k => simp [exec, execFilmPulse, hn]
    | conversionCompletion ch raw => simp [exec, execConversionCompletion, conversionCompletion, hn]
    | zeroDueExpiry ch => simp [exec, execZeroDueExpiry, zeroDueExpiry, hn]
    | autoZeroCompletion ch => simp [exec, execAutoZeroCompletion, autoZeroCompletion, hn]
    | addressCharacter l data stopError => simp [exec, execAddressCharacter, addressCharacter, hn]
    | dataCharacter l data stopError => simp [exec, execDataCharacter, dataCharacter, hn]
    | interCharacterTimeout l => simp [exec, execInterCharacterTimeout, interCharacterTimeout, hn]
    | responseTransmissionCompletion l =>
      simp [exec, execResponseTransmissionCompletion, transmissionCompletion, hn]
    | _ => simp [silentUnderReset, hr] at hi

/-- Settles O6: under nRST the silent rows leave the state, and LC acknowledges no address. -/
theorem nothingReachesThePartUnderReset : Obligations.NothingReachesThePartUnderReset := by
  refine ⟨fun i s hn hi => .intro (exec_underReset hn hi) (by simpa using .refl [] s), fun write read s hn => ⟨?_, ?_⟩⟩
  · have hquiet : writeTransaction write s = s.onWires [] [] := by
      simp [writeTransaction, State.acknowledges_underReset hn]
    exact .intro rfl (by rw [hquiet]; exact ⟨rfl, by simpa using s.onWires_frame [] []⟩)
  · have hquiet : readTransaction read s = s.onWires [] [] := by
      simp [readTransaction, State.acknowledges_underReset hn]
    exact .intro rfl (by rw [hquiet]; exact ⟨rfl, by simpa using s.onWires_frame [] []⟩)

/-! ### A level pin and its timer (R43) -/

@[simp] theorem State.modifyLevel_level (s : State) (i j : LevelInput) (f : LevelLine → LevelLine) :
    (s.modifyLevel i f).mi.level j = if j = i then f (s.mi.level i) else s.mi.level j := by
  cases i <;> cases j <;> rfl

@[simp] theorem State.modifyLevel_angle (s : State) (i : LevelInput) (f : LevelLine → LevelLine) :
    (s.modifyLevel i f).mi.angle = s.mi.angle := by
  cases i <;> rfl

/-- A pin event to the level the pin has is no change (log entry 20). -/
theorem LevelLine.pinTo_same (x : LevelLine) : x.pinTo x.pin = x := if_pos rfl

theorem LevelLine.pinTo_pin (x : LevelLine) (v : Bool) : (x.pinTo v).pin = v := by
  unfold LevelLine.pinTo
  split
  next h => exact h.symm
  next => split <;> rfl

theorem LevelLine.pinTo_differs {x : LevelLine} {v : Bool} (hp : v ≠ x.pin) (hf : v ≠ x.filtered) :
    (x.pinTo v).timer = .running 20 := by
  rw [LevelLine.pinTo, if_neg hp, if_neg hf]
  rfl

theorem LevelLine.pinTo_returns {x : LevelLine} {v : Bool} (hp : v ≠ x.pin) (hf : v = x.filtered) :
    (x.pinTo v).timer = .stopped := by
  rw [LevelLine.pinTo, if_neg hp, if_pos hf]

/-! ### The expiry of a stability timer (R43, R44, R46) -/

theorem stabilityExpiry_stopped {i : LevelInput} {s : State} (h : (s.mi.level i).timer.isRunning = false) :
    stabilityExpiry i s = s := if_pos h

/-- At the expiry of a running timer the filtered level takes the pin level, and the change is handed on or not. -/
theorem stabilityExpiry_running {i : LevelInput} {s : State} (h : (s.mi.level i).timer.isRunning = true) :
    stabilityExpiry i s = s.modifyLevel i LevelLine.settle ∨
      s.nrstAsserted = false ∧ stabilityExpiry i s =
        levelArrival i (s.mi.level i).pin (s.modifyLevel i LevelLine.settle) := by
  unfold stabilityExpiry
  dsimp only
  rw [if_neg (by simp [h])]
  split
  · exact .inl rfl
  next hpass => exact .inr ⟨by simpa using fun e => hpass (.inl e), rfl⟩

theorem stabilityExpiry_mi {i : LevelInput} {s : State} (h : (s.mi.level i).timer.isRunning = true) :
    (stabilityExpiry i s).mi = (s.modifyLevel i LevelLine.settle).mi := by
  rcases stabilityExpiry_running h with he | ⟨-, he⟩ <;> rw [he]
  exact levelArrival_frame _ _ _ .mi (by simp [recordBlocks, arbiters])

/-- Under nRST, and for TAILGATE at any time, nothing but the filtered level and its timer changes. -/
theorem stabilityExpiry_quiet {i : LevelInput} {s : State} (h : (s.mi.level i).timer.isRunning = true)
    (hquiet : i = .tailgate ∨ s.nrstAsserted = true) :
    stabilityExpiry i s = s.modifyLevel i LevelLine.settle := by
  rcases stabilityExpiry_running h with he | ⟨hn, he⟩
  · exact he
  · rcases hquiet with rfl | hq
    · exact he
    · simp [hn] at hq

/-- Settles O7: a pin event moves the pin and its timer, and an expiry moves the filtered level, whose change TAILGATE and
nRST keep from every other block. -/
theorem levelInputs : Obligations.LevelInputs := by
  refine ⟨fun i v s => .intro rfl ?_, fun i s => .intro rfl ⟨fun hstopped => ?_, fun hrunning => ?_⟩⟩
  · have hlevel : (s.modifyLevel i (·.pinTo v)).mi.level i = (s.mi.level i).pinTo v := by simp
    rw [hlevel]
    refine ⟨LevelLine.pinTo_pin _ v, LevelLine.pinTo_filtered _ v, LevelLine.pinTo_differs, LevelLine.pinTo_returns,
      ?_, fun j hj => by simp [hj], s.modifyLevel_angle i _, s.modifyLevel_frame i _, s.modifyLevel_na i _⟩
    rintro rfl
    rw [LevelLine.pinTo_same]
  · rw [stabilityExpiry_stopped hstopped]
    simpa using .refl [] s
  · simp only [refreshAttention_mi, stabilityExpiry_mi hrunning, OnlyChanges_refreshAttention]
    refine ⟨by simp [LevelLine.settle], fun j hj => by simp [hj], by simp, fun hquiet => ?_⟩
    rw [stabilityExpiry_quiet hrunning hquiet]
    exact s.modifyLevel_frame i _

end Sys2Proof.Machine
end

section
/-! Proofs. The channels: a conversion completion (R29 to R31), the automatic start (R35), the zero-due expiry (R34), the
forced zero and the end of a cycle (R36, R37). -/

namespace Sys2Proof.Machine

/-! ### The automatic start (R35) -/

/-- What R35 asks of a channel: a debt of 1 or more, no port holding it, no cycle running. -/
theorem ChannelRecord.evalZero_begins {c : ChannelRecord} (hd : 1 ≤ c.debt) (hh : c.hold = ⟨false, false, false⟩)
    (hz : c.zeroing = false) : c.evalZero = c.beginZero :=
  if_pos ⟨hd, c.hold.isEmpty_iff.mpr hh, hz⟩

theorem ChannelRecord.evalZero_stays {c : ChannelRecord}
    (h : ¬ (1 ≤ c.debt ∧ c.hold = ⟨false, false, false⟩ ∧ c.zeroing = false)) : c.evalZero = c := by
  rw [← c.hold.isEmpty_iff] at h
  exact if_neg h

/-! Whether a cycle begins or not, the automatic start writes `zeroing`, STALE and the conversion timer alone. -/

@[simp] theorem ChannelRecord.evalZero_raw (c : ChannelRecord) : c.evalZero.raw = c.raw := by
  unfold ChannelRecord.evalZero; split <;> rfl
@[simp] theorem ChannelRecord.evalZero_value (c : ChannelRecord) : c.evalZero.value = c.value := by
  unfold ChannelRecord.evalZero; split <;> rfl
@[simp] theorem ChannelRecord.evalZero_saturated (c : ChannelRecord) : c.evalZero.saturated = c.saturated := by
  unfold ChannelRecord.evalZero; split <;> rfl
@[simp] theorem ChannelRecord.evalZero_debt (c : ChannelRecord) : c.evalZero.debt = c.debt := by
  unfold ChannelRecord.evalZero; split <;> rfl
@[simp] theorem ChannelRecord.evalZero_hold (c : ChannelRecord) : c.evalZero.hold = c.hold := by
  unfold ChannelRecord.evalZero; split <;> rfl
@[simp] theorem ChannelRecord.evalZero_zeroDueTimer (c : ChannelRecord) :
    c.evalZero.zeroDueTimer = c.zeroDueTimer := by
  unfold ChannelRecord.evalZero; split <;> rfl

/-! ### One channel changed -/

@[simp] theorem State.modifyChannel_get (s : State) (ch c : Channel) (f : ChannelRecord → ChannelRecord) :
    (s.modifyChannel ch f).mf.get c = if c = ch then f (s.mf.get ch) else s.mf.get c := by
  simp [State.modifyChannel]

/-! ### A conversion completion (R29 to R31) -/

theorem scale_eq_scaled (k : Calibration) (top : Nat) (raw : Int) : scale k top raw = scaled k top raw := by
  rw [scale, scaled, clampInt_eq _ _ _ (by omega)]

theorem usePressure_frame (value : Nat) (s : State) : OnlyChanges [.bt, .cu] s (usePressure value s) := by
  let tested : State := { s.modifyRecord .chamber (·.withPressure value) with
    cu := { s.cu with lockout := lockoutAfter s.rs.constants s.cu.lockout value } }
  have htested : OnlyChanges [.bt, .cu] s tested :=
    ((State.modifyRecord_frame _ _ s).mono (by simp)).trans ((OnlyChanges.of_cu _ _).mono (by simp))
  have hflagged : OnlyChanges [.bt, .cu] s
      (if tested.cu.lockout then tested.flagRecord .chamber (fun f => { f with overpressureSeen := true })
        else tested) := by
    split
    · exact htested.trans ((State.modifyRecord_frame _ _ _).mono (by simp))
    · exact htested
  exact hflagged.trans ((OnlyChanges.of_cu _ _).mono (by simp))

/-- What a completion is handed to touches the records and CU, and nothing else (Table 2-4). -/
theorem handOff_frame (ch : Channel) (value : Nat) (s : State) : OnlyChanges [.bt, .cu] s (handOff ch value s) := by
  cases ch with
  | p => exact usePressure_frame value s
  | d => exact ((recomputeCode_frame s).mono (by simp)).trans ((syncChamber_frame _).mono (by simp))
  | m => exact (State.modifyRecord_frame _ _ s).mono (by simp)

theorem conversionCompletion_stopped {ch : Channel} (raw : Int) {s : State}
    (h : (s.mf.get ch).convTimer.isRunning = false) : conversionCompletion ch raw s = s := if_pos (.inr h)

/-- The channel's record after a completion: what R30 stores, then the automatic start. -/
theorem conversionCompletion_get {ch : Channel} (raw : Int) {s : State} (hn : s.nrstAsserted = false)
    (h : (s.mf.get ch).convTimer.isRunning = true) (c : Channel) :
    (conversionCompletion ch raw s).mf.get c =
      if c = ch then ((s.mf.get ch).convert (s.rs.chan.get ch) (channelTop ch) raw).evalZero else s.mf.get c := by
  unfold conversionCompletion
  rw [if_neg (by simp [hn, h])]
  simp only [State.modifyChannel_get, handOff_mf, if_true]
  split <;> rfl

theorem conversionCompletion_frame (ch : Channel) (raw : Int) (s : State) :
    OnlyChanges [.mf, .bt, .cu] s (conversionCompletion ch raw s) := by
  unfold conversionCompletion
  split
  · exact .refl _ _
  · exact ((s.modifyChannel_frame ch _).mono (by simp)).trans
      (((handOff_frame ch _ _).mono (by simp)).trans ((State.modifyChannel_frame _ ch _).mono (by simp)))

/-! ### The zero-due expiry (R34 to R36) -/

/-- A setting handed to all three ports. -/
theorem Hands.all (src : Source) (i : Fin 4) (d : Nat) {s : State} (hn : s.nrstAsserted = false) :
    Hands [⟨.a, src, i, d⟩, ⟨.b, src, i, d⟩, ⟨.c, src, i, d⟩] s (setLatchAll src i d s) :=
  Hands.append (xs := [⟨.a, src, i, d⟩, ⟨.b, src, i, d⟩])
    (Hands.append (xs := [⟨.a, src, i, d⟩]) (Hands.one .a src i d hn) (Hands.one .b src i d (by simpa using hn))
      (by simp [Setting.apart]))
    (Hands.one .c src i d (by simpa using hn)) (by simp [Setting.apart])

theorem setLatchAll_frame (src : Source) (i : Fin 4) (d : Nat) (s : State) :
    OnlyChanges arbiters s (setLatchAll src i d s) :=
  ((setLatch_frame .a src i d s).mono (by simp [arbiters])).trans
    (((setLatch_frame .b src i d _).mono (by simp [arbiters])).trans
      ((setLatch_frame .c src i d _).mono (by simp [arbiters])))

theorem zeroDueExpiry_stopped {ch : Channel} {s : State} (h : (s.mf.get ch).zeroDueTimer.isRunning = false) :
    zeroDueExpiry ch s = s := if_pos (.inr h)

/-- Below a debt of 8 the debt steps up, and the automatic start follows. -/
theorem zeroDueExpiry_below {ch : Channel} {s : State} (hn : s.nrstAsserted = false)
    (h : (s.mf.get ch).zeroDueTimer.isRunning = true) (hd : (s.mf.get ch).debt < 8) :
    zeroDueExpiry ch s = s.modifyChannel ch
      (fun c => { c with debt := c.debt + 1, zeroDueTimer := .running zeroDueMs }.evalZero) := by
  rw [zeroDueExpiry, if_neg (by simp [hn, h]), if_pos hd]

/-- At a debt of 8 a cycle is forced, unless one is running. -/
theorem zeroDueExpiry_forced {ch : Channel} {s : State} (hn : s.nrstAsserted = false)
    (h : (s.mf.get ch).zeroDueTimer.isRunning = true) (hd : (s.mf.get ch).debt = 8)
    (hz : (s.mf.get ch).zeroing = false) :
    zeroDueExpiry ch s = setLatchAll .zeroForced (channelInst ch) (channelNumber ch)
      (s.modifyChannel ch (fun c => { c with zeroDueTimer := .running zeroDueMs }.beginZero)) := by
  rw [zeroDueExpiry, if_neg (by simp [hn, h]), if_neg (by omega), if_pos hz]

theorem zeroDueExpiry_running {ch : Channel} {s : State} (hn : s.nrstAsserted = false)
    (h : (s.mf.get ch).zeroDueTimer.isRunning = true) (hd : (s.mf.get ch).debt = 8)
    (hz : (s.mf.get ch).zeroing = true) :
    zeroDueExpiry ch s = s.modifyChannel ch (fun c => { c with zeroDueTimer := .running zeroDueMs }) := by
  rw [zeroDueExpiry, if_neg (by simp [hn, h]), if_neg (by omega), if_neg (by simp [hz])]

theorem zeroDueExpiry_get_ne {ch c : Channel} (s : State) (hc : c ≠ ch) :
    (zeroDueExpiry ch s).mf.get c = s.mf.get c := by
  unfold zeroDueExpiry
  (repeat' split) <;> simp [hc]

/-- Every expiry restarts the zero-due timer. -/
theorem zeroDueExpiry_restarts {ch : Channel} {s : State} (hn : s.nrstAsserted = false)
    (h : (s.mf.get ch).zeroDueTimer.isRunning = true) :
    ((zeroDueExpiry ch s).mf.get ch).zeroDueTimer = .running zeroDueMs := by
  unfold zeroDueExpiry
  rw [if_neg (by simp [hn, h])]
  (repeat' split) <;> simp [ChannelRecord.beginZero]

/-! ### The end of a cycle (R37) -/

theorem autoZeroCompletion_idle {ch : Channel} {s : State} (hz : (s.mf.get ch).zeroing = false) :
    autoZeroCompletion ch s = s := if_pos (.inr hz)

theorem autoZeroCompletion_ends {ch : Channel} {s : State} (hn : s.nrstAsserted = false)
    (hz : (s.mf.get ch).zeroing = true) :
    autoZeroCompletion ch s = s.modifyChannel ch (·.endZero (s.rs.chan.get ch)) := by
  rw [autoZeroCompletion, if_neg (by simp [hn, hz])]

end Sys2Proof.Machine

namespace Sys2Proof.Proofs

open Machine

/-- Settles O18: the record of R30, the value scaled by R31, then the automatic start of R35. -/
theorem conversionCompletion : Obligations.ConversionCompletion := by
  intro ch raw s hn
  refine .intro rfl ⟨fun hstopped => ?_, fun hrunning => ?_⟩
  · rw [conversionCompletion_stopped raw hstopped]
    simpa using .refl [] s
  simp only [refreshAttention_mf, OnlyChanges_refreshAttention, conversionCompletion_get raw hn hrunning, if_true]
  let stored := (s.mf.get ch).convert (s.rs.chan.get ch) (channelTop ch) raw
  refine ⟨stored.evalZero_raw, stored.evalZero_value.trans (scale_eq_scaled _ _ _), stored.evalZero_saturated,
    stored.evalZero_debt, stored.evalZero_hold, stored.evalZero_zeroDueTimer, fun hd hh hz => ?_, fun hno => ?_,
    fun c hc => if_neg hc, conversionCompletion_frame ch raw s⟩
  · rw [ChannelRecord.evalZero_begins (c := stored) hd hh hz]
    exact ⟨rfl, rfl, rfl⟩
  · rw [ChannelRecord.evalZero_stays (c := stored) hno]
    exact ⟨rfl, rfl, rfl⟩

/-- Settles O22: the debt of 8 divides the expiries, and the automatic start of R35 those below it. -/
theorem zeroDueAndAutoZero : Obligations.ZeroDueAndAutoZero := by
  constructor
  · intro ch s hn
    refine .intro rfl ⟨fun hstopped => ?_, fun hrunning => ?_⟩
    · rw [zeroDueExpiry_stopped hstopped]
      simpa using .refl [] s
    simp only [refreshAttention_mf, OnlyChanges_refreshAttention]
    refine ⟨?_, fun c hc => zeroDueExpiry_get_ne s hc, fun hd => ?_, fun hd hz => ?_, fun hd hz => ?_⟩
    · exact zeroDueExpiry_restarts hn hrunning
    · let due : ChannelRecord :=
        { s.mf.get ch with debt := (s.mf.get ch).debt + 1, zeroDueTimer := .running zeroDueMs }
      have hdue : 1 ≤ due.debt ↔ 0 ≤ (s.mf.get ch).debt := by
        simp only [due]
        omega
      rw [zeroDueExpiry_below hn hrunning hd]
      refine ⟨fun hno => ?_, fun hd hh hz => ?_, s.modifyChannel_frame ch _⟩
      · rw [State.modifyChannel_get, if_pos rfl, ChannelRecord.evalZero_stays (c := due) (by rwa [hdue])]
        rfl
      · rw [State.modifyChannel_get, if_pos rfl, ChannelRecord.evalZero_begins (c := due) (hdue.mpr hd) hh hz]
        rfl
    · rw [zeroDueExpiry_running hn hrunning hd hz]
      exact ⟨by simp [zeroDueMs], s.modifyChannel_frame ch _⟩
    · rw [zeroDueExpiry_forced hn hrunning hd hz]
      refine ⟨by simp [zeroDueMs, ChannelRecord.beginZero], ?_, ?_⟩
      · exact ((Hands.all _ _ _ (s := s.modifyChannel ch _) hn).congr rfl rfl).refresh
      · exact ((s.modifyChannel_frame ch _).mono (by simp)).trans
          ((setLatchAll_frame _ _ _ _).mono (by simp +contextual))
  · intro ch s hn
    refine .intro rfl ⟨fun hz => ?_, fun hz => ?_⟩
    · simp only [refreshAttention_mf, OnlyChanges_refreshAttention, autoZeroCompletion_ends hn hz]
      exact ⟨by simp [ChannelRecord.endZero], fun c hc => by simp [hc], s.modifyChannel_frame ch _⟩
    · rw [autoZeroCompletion_idle hz]
      simpa using .refl [] s

end Sys2Proof.Proofs
end

section
/-! Proofs. A counted lay by the place its record has in the list (R113 to R120, R142, R143): coverage, the film charge,
the completion, and the dispenser that ran short. -/

namespace Sys2Proof.Machine

/-- A wrap section changed on the table record. -/
theorem State.HoldsIn.modifyWrap {s : State} {older younger : List Bale} {b : Bale} {w : WrapSection}
    (h : s.HoldsIn .table older b younger) (hw : b.wrap = some w) (f : WrapSection → WrapSection) :
    s.modifyWrap f = { s with bt := { s.bt with bales := older ++ { b with wrap := some (f w) } :: younger } } := by
  rw [State.modifyWrap, h.modifyRecord, hw]
  rfl

/-- A record that takes the place of the table record, itself on the table. -/
theorem State.HoldsIn.replace {s t : State} {older younger : List Bale} {b c : Bale} {z : Zone}
    (h : s.HoldsIn z older b younger) (ht : t.bt.bales = older ++ c :: younger) (hc : c.stage.zone = z) :
    t.HoldsIn z older c younger := ⟨ht, hc, h.2.2⟩

/-! ### The completion of a wrap (R119, R120, R122) -/

theorem Bale.toStage_wrapped {b : Bale} (hs : b.stage = .wrapping) (clock : Nat) :
    b.toStage .wrapped clock = { b with stage := .wrapped, wrapped := some clock } := by
  simp [Bale.toStage, hs]

/-- The table record WRAPPED, with the STAGE settings and WRAP_DONE. -/
def finishWrap (i : Fin 4) (older : List Bale) (b : Bale) (younger : List Bale) (s : State) : State :=
  setLatch .b .wrapDone i b.seq (setStageLatches .table b.seq { s with bt := { s.bt with
    bales := older ++ { b with stage := .wrapped, wrapped := some s.bt.runClock } :: younger } })

/-- The entry to WRAPPED from WRAPPING, with WRAP_DONE: the chamber is not affected. -/
theorem State.HoldsIn.finishWrap {s : State} {older younger : List Bale} {b : Bale}
    (h : s.HoldsIn .table older b younger) (hs : b.stage = .wrapping) (hd : DriveInv s) (i : Fin 4) :
    setLatch .b .wrapDone i b.seq (Machine.enterStage .table .wrapped s) = Machine.finishWrap i older b younger s := by
  rw [h.enterStage_table hd .wrapped rfl (by simp), Bale.toStage_wrapped hs]
  rfl

theorem finishWrap_hands (i : Fin 4) (older : List Bale) (b : Bale) (younger : List Bale) {s : State}
    (hn : s.nrstAsserted = false) :
    Hands (stageSettings .table b.seq ++ [⟨.b, .wrapDone, i, b.seq⟩]) s (finishWrap i older b younger s) :=
  Hands.append
    (t := setStageLatches .table b.seq { s with bt := { s.bt with
      bales := older ++ { b with stage := .wrapped, wrapped := some s.bt.runClock } :: younger } })
    ((Hands.stage .table b.seq (s := { s with bt := _ }) hn).congr rfl rfl) (Hands.one _ _ _ _ hn)
    (by simp [stageSettings, Setting.apart])

theorem finishWrap_frame (i : Fin 4) (older : List Bale) (b : Bale) (younger : List Bale) (s : State) :
    OnlyChanges (.bt :: arbiters) s (finishWrap i older b younger s) :=
  ((OnlyChanges.of_bt s _).mono (by simp)).trans
    (((setStageLatches_frame _ _ _).mono (by simp +contextual)).trans
      ((setLatch_frame _ _ _ _ _).mono (by simp [arbiters])))

/-- The completion test on the record in its place (R119). -/
theorem State.HoldsIn.testCompletion {s : State} {older younger : List Bale} {b : Bale} {w : WrapSection}
    (h : s.HoldsIn .table older b younger) (hs : b.stage = .wrapping) (hw : b.wrap = some w) (hd : DriveInv s) :
    Machine.testCompletion s =
      if w.layerTarget ≤ lowestCount w.layers then Machine.finishWrap 0 older b younger s else s := by
  rw [Machine.testCompletion, h.wrapping hs hw]
  dsimp only
  rw [h.finishWrap hs hd]

/-! ### Steps 1 to 3 of a counted lay (R114 to R117, R142, R143) -/

/-- The wrap section after a lay that charges `taken` mm of film. -/
def WrapSection.laid (w : WrapSection) (k : Dispenser) (layers : List Nat) (taken : Nat) : WrapSection :=
  { w with
    layers := layers
    lays1 := if k = .one then stepSaturating w.lays1 65535 else w.lays1
    lays2 := if k = .two then stepSaturating w.lays2 65535 else w.lays2
    film1 := if k = .one then filmTotal w.film1 taken else w.film1
    film2 := if k = .two then filmTotal w.film2 taken else w.film2 }

theorem WrapSection.lay_addFilm (c : Constants) (r : Recipe) (w : WrapSection) (k : Dispenser) (taken : Nat) :
    (w.lay k (bandWidth c r w.circ)).addFilm k taken = w.laid k (layersAfter c r w) taken := by
  cases k <;> simp [WrapSection.lay, WrapSection.addFilm, WrapSection.laid, addLayer_layersAfter, filmSum_eq_filmTotal]

/-- The record after a lay: its section, and FILM_SHORT where the charge brought a known stock to 0. -/
def Bale.laid (b : Bale) (w : WrapSection) (short : Bool) : Bale :=
  { b with wrap := some w, flags := { b.flags with filmShort := b.flags.filmShort || short } }

/-- The state after steps 1 to 3 of a counted lay on the record `b`, whose section is `w`. -/
def chargedLay (k : Dispenser) (older : List Bale) (b : Bale) (w : WrapSection) (younger : List Bale)
    (s : State) : State :=
  let d := s.ds.film.get k
  let charge := s.layCharge k b
  let laid := b.laid (w.laid k (layersAfter s.rs.constants b.recipe w) (d.taken charge)) (d.shortOf charge)
  let charged := d.afterCharge (filmNumerator s.rs.constants b.netDiameter d.residue) (100 + b.recipe.s)
  { s with
    bt := { s.bt with bales := older ++ laid :: younger }
    ds := { s.ds with film := s.ds.film.set k charged } }

theorem State.HoldsIn.chargedLay {s : State} {older younger : List Bale} {b : Bale} {w : WrapSection} (k : Dispenser)
    (h : s.HoldsIn .table older b younger) (hw : b.wrap = some w) :
    chargeFilm k b (s.modifyWrap (fun x => x.lay k (bandWidth s.rs.constants b.recipe w.circ))) =
      Machine.chargedLay k older b w younger s := by
  rw [h.modifyWrap hw]
  let b1 : Bale := { b with wrap := some (w.lay k (bandWidth s.rs.constants b.recipe w.circ)) }
  let s1 : State := { s with bt := { s.bt with bales := older ++ b1 :: younger } }
  have h1 : s1.HoldsIn .table older b1 younger := h.replace rfl h.2.1
  have hcharged := h1.modifyWrap rfl (fun x => x.addFilm k ((s.ds.film.get k).taken (s.layCharge k b)))
  simp only [WrapSection.lay_addFilm] at hcharged
  show chargeFilm k b s1 = _
  unfold chargeFilm
  have hd : s1.ds.film.get k = s.ds.film.get k := rfl
  have hc : s1.layCharge k b = s.layCharge k b := rfl
  simp only [hd, hc, hcharged]
  let w2 := w.laid k (layersAfter s.rs.constants b.recipe w) ((s.ds.film.get k).taken (s.layCharge k b))
  let film := s.ds.film.set k ((s.ds.film.get k).afterCharge
    (filmNumerator s.rs.constants b.netDiameter (s.ds.film.get k).residue) (100 + b.recipe.s))
  let s2 : State := { s1 with
    bt := { s.bt with bales := older ++ { b with wrap := some w2 } :: younger }, ds := { s.ds with film := film } }
  have h2 : s2.HoldsIn .table older { b with wrap := some w2 } younger := h.replace rfl h.2.1
  show (if (s.ds.film.get k).shortOf (s.layCharge k b) = true then
    s2.flagRecord .table (fun f => { f with filmShort := true }) else s2) = _
  rw [State.flagRecord, h2.modifyRecord]
  cases hshort : (s.ds.film.get k).shortOf (s.layCharge k b) <;>
    simp [Machine.chargedLay, hshort, Bale.laid, w2, film, s2, s1]

theorem State.HoldsIn.chargedLay_drive {s : State} {older younger : List Bale} {b : Bale} {w : WrapSection}
    (k : Dispenser) (h : s.HoldsIn .table older b younger) (hw : b.wrap = some w) (hd : DriveInv s)
    (hn : s.nrstAsserted = false) : DriveInv (Machine.chargedLay k older b w younger s) := by
  rw [← h.chargedLay k hw]
  exact chargeFilm_drive k b hn (hd.modifyWrap hn _)

/-! ### The whole lay (R117, R119, R143) -/

/-- Steps 4 and 5 of a counted lay: the record `b` completed or not, the dispenser emptied or not. -/
def closeLay (k : Dispenser) (older : List Bale) (b : Bale) (younger : List Bale) (complete short : Bool)
    (s : State) : State :=
  let tested := if complete then finishWrap 0 older b younger s else s
  if short then emptyDispenser k b.seq tested else tested

theorem State.HoldsIn.countedLay {s : State} {older younger : List Bale} {b : Bale} {w : WrapSection} (k : Dispenser)
    (h : s.HoldsIn .table older b younger) (hs : b.stage = .wrapping) (hw : b.wrap = some w) (hl : w.layers ≠ [])
    (hd : DriveInv s) (hn : s.nrstAsserted = false) :
    Machine.countedLay k b w s =
      let charge := s.layCharge k b
      let short := (s.ds.film.get k).shortOf charge
      let layers := layersAfter s.rs.constants b.recipe w
      closeLay k older (b.laid (w.laid k layers ((s.ds.film.get k).taken charge)) short) younger
        (layers.all (fun x => decide (w.layerTarget ≤ x))) short (Machine.chargedLay k older b w younger s) := by
  have hl' : layersAfter s.rs.constants b.recipe w ≠ [] := by
    rwa [ne_eq, ← List.length_eq_zero_iff, layersAfter_length, List.length_eq_zero_iff]
  have hcharged : (Machine.chargedLay k older b w younger s).HoldsIn .table older _ younger := h.replace rfl h.2.1
  have htested := hcharged.testCompletion hs rfl (h.chargedLay_drive k hw hd hn)
  have hcomplete : (layersAfter s.rs.constants b.recipe w).all (fun x => decide (w.layerTarget ≤ x)) = true ↔
      w.layerTarget ≤ lowestCount (layersAfter s.rs.constants b.recipe w) := by
    simp [le_lowestCount _ hl']
  simp only [Machine.countedLay, h.chargedLay k hw, htested, closeLay, hcomplete]
  rfl

section closing

variable (k : Dispenser) {older younger : List Bale} {b : Bale} (complete short : Bool) {s : State}

theorem closeLay_bt (hb : b.stage = .wrapping) (hl : s.bt.bales = older ++ b :: younger) :
    (closeLay k older b younger complete short s).bt = { s.bt with bales := older ++
      { b with
        stage := if complete then .wrapped else .wrapping
        wrapped := if complete then some s.bt.runClock else b.wrapped } :: younger } := by
  have hkept : s.bt = { s.bt with bales := older ++ { b with stage := .wrapping } :: younger } := by
    rw [← hb, ← hl]
  cases complete <;> cases short
  · exact hkept
  · exact hkept
  · rfl
  · rfl

theorem closeLay_ds : (closeLay k older b younger complete short s).ds =
    if short then { s.ds with film := s.ds.film.set k { s.ds.film.get k with state := .empty } } else s.ds := by
  cases complete <;> cases short <;> rfl

theorem emptyDispenser_hands (q : Nat) (hn : s.nrstAsserted = false) :
    Hands [filmSetting k q] s (emptyDispenser k q s) :=
  (Hands.one .b .film (dispenserInst k) q (s := s.modifyDispenser k (fun d => { d with state := .empty })) hn).congr
    rfl rfl

theorem closeLay_hands (hn : s.nrstAsserted = false) :
    Hands ((if complete then stageSettings .table b.seq ++ [⟨.b, .wrapDone, 0, b.seq⟩] else []) ++
      (if short then [filmSetting k b.seq] else [])) s (closeLay k older b younger complete short s) := by
  have htested : Hands (if complete then stageSettings .table b.seq ++ [⟨.b, .wrapDone, 0, b.seq⟩] else []) s
      (if complete then finishWrap 0 older b younger s else s) := by
    cases complete
    · exact .nil rfl
    · exact finishWrap_hands 0 older b younger hn
  have hn' : (if complete then finishWrap 0 older b younger s else s).nrstAsserted = false := by
    cases complete <;> exact hn
  unfold closeLay
  cases short
  · simpa using htested
  · refine htested.append (emptyDispenser_hands k b.seq hn') ?_
    cases complete <;> simp [stageSettings, Setting.apart, filmSetting]

theorem closeLay_frame : OnlyChanges (.bt :: .ds :: arbiters) s (closeLay k older b younger complete short s) := by
  have htested : OnlyChanges (.bt :: .ds :: arbiters) s (if complete then finishWrap 0 older b younger s else s) := by
    cases complete
    · exact .refl _ _
    · exact (finishWrap_frame 0 older b younger s).mono (by simp +contextual)
  unfold closeLay
  cases short
  · exact htested
  · exact htested.trans ((emptyDispenser_frame _ _ _).mono (by simp [arbiters]))

end closing

/-! ### A lay position (R113) -/

theorem layPosition_uncounted {k : Dispenser} {s : State}
    (h : s.wrapping = none ∨ (s.ds.film.get k).state ≠ .running ∨ s.mi.stop.filtered = true) : layPosition k s = s := by
  unfold layPosition
  split
  next b w hw =>
    refine if_neg (fun hcount => ?_)
    obtain ⟨hrun, hstop⟩ := hcount
    rcases h with h | h | h
    · simp [hw] at h
    · exact h hrun
    · simp [hstop] at h
  next => rfl

theorem State.HoldsIn.layPosition {s : State} {older younger : List Bale} {b : Bale} {w : WrapSection} {k : Dispenser}
    (h : s.HoldsIn .table older b younger) (hs : b.stage = .wrapping) (hw : b.wrap = some w)
    (hrun : (s.ds.film.get k).state = .running) (hstop : s.mi.stop.filtered = false) :
    Machine.layPosition k s = Machine.countedLay k b w s := by
  rw [Machine.layPosition, h.wrapping hs hw]
  exact if_pos ⟨hrun, hstop⟩

theorem chargedLay_frame (k : Dispenser) (older : List Bale) (b : Bale) (w : WrapSection) (younger : List Bale)
    (s : State) : OnlyChanges [.bt, .ds] s (chargedLay k older b w younger s) := by
  intro k hk
  cases k with
  | arbiter p => exact ⟨rfl, rfl, rfl⟩
  | link p => cases p <;> rfl
  | _ => first | rfl | simp at hk

/-- A lay position does what the statements say of it, where the drive is in line. -/
theorem layPosition_does (k : Dispenser) {s : State} (hn : s.nrstAsserted = false) (hd : DriveInv s) :
    LayPosition k s (layPosition k s) := by
  refine ⟨fun h => ?_, fun older younger b w n hh hs hw hnet hl hrun hstop => ?_⟩
  · rw [layPosition_uncounted h]
    exact .refl _ _
  intro d numerator charge short taken layers complete
  have hnumerator : filmNumerator s.rs.constants b.netDiameter d.residue = numerator := by
    simp [filmNumerator, Bale.netDiameter, hnet, numerator]
  have hcharge : s.layCharge k b = charge := congrArg (· / (100 + b.recipe.s)) hnumerator
  let laid := b.laid (w.laid k layers taken) short
  let c := chargedLay k older b w younger s
  have hlay : layPosition k s = closeLay k older laid younger complete short c := by
    rw [hh.layPosition hs hw hrun hstop, hh.countedLay k hs hw hl hd hn, hcharge]
    rfl
  have hc : c.bt = { s.bt with bales := older ++ laid :: younger } := by
    simp only [c, chargedLay, hcharge]
    rfl
  have hcd : c.ds = { s.ds with film := s.ds.film.set k (d.afterCharge numerator (100 + b.recipe.s)) } := by
    simp only [c, chargedLay, d, hnumerator]
  have hds := closeLay_ds k complete short (older := older) (b := laid) (younger := younger) (s := c)
  have hbt := closeLay_bt k complete short (b := laid) (s := c) (younger := younger) hs (by rw [hc])
  have hhands := closeLay_hands k complete short (older := older) (b := laid) (younger := younger) (s := c) hn
  have hframe := closeLay_frame k complete short (older := older) (b := laid) (younger := younger) (s := c)
  rw [hlay]
  generalize closeLay k older laid younger complete short c = t at *
  refine ⟨?_, ?_, fun j hj => ?_, ?_, ?_, ?_⟩
  · rw [hc] at hbt
    exact hbt
  · have hcharged : d.afterCharge numerator (100 + b.recipe.s) = { d with
        residue := numerator % (100 + b.recipe.s), stock := if d.known then d.stock - taken else d.stock } := rfl
    have hrunning : d.state = .running := hrun
    rw [hds, hcd, hcharged]
    clear_value d short taken
    cases short <;> simp [hrunning]
  · rw [hds, hcd]
    cases short <;> simp [hj]
  · rw [hds, hcd]
    cases short <;> exact ⟨rfl, rfl⟩
  · exact hhands.congr rfl rfl
  · exact ((chargedLay_frame k older b w younger s).mono (by simp)).trans
      (hframe.mono (by simp +contextual [or_imp]))

end Sys2Proof.Machine
end

section
/-! Proofs. The table pulses: the silence step with its breaks (R135, R137), the revolution and the cap (R121, R122), and
the two statements about the pulses of the table. -/

namespace Sys2Proof.Machine

/-! ### The silence step (R135, R137) -/

/-- The dispenser after its silence step: the counter stepped up to `limit`, BROKEN where the step breaks it. -/
def DispenserRecord.silenced (d : DispenserRecord) (limit : Nat) (breaks : Bool) : DispenserRecord :=
  { d with silence := stepSaturating d.silence limit, state := if breaks then .broken else d.state }

theorem State.breaksNext_iff (s : State) (k : Dispenser) : s.breaksNext k = true ↔
    (s.ds.film.get k).silence < s.rs.constants.tablePulses / 4 ∧
      (s.ds.film.get k).silence + 1 = s.rs.constants.tablePulses / 4 ∧ (s.ds.film.get k).state = .running := by
  simp only [State.breaksNext, Bool.and_eq_true, decide_eq_true_eq]
  constructor
  · rintro ⟨hrun, hlast⟩
    exact ⟨by omega, hlast, hrun⟩
  · rintro ⟨-, hlast, hrun⟩
    exact ⟨hrun, hlast⟩

theorem stepSilence_eq (k : Dispenser) (q : Nat) (s : State) : stepSilence k q s =
    let stepped := s.modifyDispenser k
      (fun x => { x with silence := stepSaturating x.silence (s.rs.constants.tablePulses / 4) })
    if s.breaksNext k then breakFilm k q stepped else stepped := by
  simp only [State.breaksNext_iff]
  rfl

theorem stepSilence_ds (k : Dispenser) (q : Nat) (s : State) : (stepSilence k q s).ds =
    { s.ds with film :=
      s.ds.film.set k ((s.ds.film.get k).silenced (s.rs.constants.tablePulses / 4) (s.breaksNext k)) } := by
  rw [stepSilence_eq]
  cases s.breaksNext k
  · rfl
  · cases k <;> rfl

theorem stepSilence_hands (k : Dispenser) (q : Nat) {s : State} (hn : s.nrstAsserted = false) :
    Hands (if s.breaksNext k then [filmSetting k q] else []) s (stepSilence k q s) := by
  rw [stepSilence_eq]
  cases s.breaksNext k
  · exact .nil rfl
  · exact (Hands.one .b .film (dispenserInst k) q hn).congr rfl rfl

/-- The record after the silence step of one dispenser. -/
theorem State.HoldsIn.stepSilence {s : State} {older younger : List Bale} {b : Bale} {w : WrapSection} (k : Dispenser)
    (q : Nat) (h : s.HoldsIn .table older b younger) (hw : b.wrap = some w) :
    BalesBecome (older ++
      { b with wrap := some (if s.breaksNext k then w.withBreak k s.bt.runClock else w) } :: younger) s
      (Machine.stepSilence k q s) := by
  rw [stepSilence_eq]
  cases s.breaksNext k
  · have hkept : s.bt = { s.bt with bales := older ++ { b with wrap := some w } :: younger } := by
      rw [← hw, ← h.1]
    exact hkept
  · let broken := (s.modifyDispenser k (fun x =>
        { x with silence := stepSaturating x.silence (s.rs.constants.tablePulses / 4) })).modifyDispenser k
      (fun d => { d with state := .broken })
    have hb : broken.HoldsIn .table older b younger := h.congr rfl
    have hmarked := hb.modifyWrap hw (fun w => w.addBreak k s.bt.runClock)
    exact congrArg State.bt hmarked

/-- The silence step of both dispensers, dispenser 1 first, while the record `b` is WRAPPING. -/
theorem stepSilences_does {s : State} {older younger : List Bale} {b : Bale} {w : WrapSection}
    (hn : s.nrstAsserted = false) (h : s.HoldsIn .table older b younger) (hs : b.stage = .wrapping)
    (hw : b.wrap = some w) : SilenceStep older b w younger s (stepSilences s) := by
  have hsilent : stepSilences s = stepSilence .two b.seq (stepSilence .one b.seq s) := by
    rw [stepSilences, h.wrapping hs hw]
  let u := stepSilence .one b.seq s
  let b1 : Bale := { b with wrap := some (if s.breaksNext .one then w.withBreak .one s.bt.runClock else w) }
  have hbt : BalesBecome (older ++ b1 :: younger) s u := h.stepSilence .one b.seq hw
  have hframe : OnlyChanges [.bt, .ds, .arbiter .b] s u := stepSilence_frame .one b.seq s
  have hrs : u.rs = s.rs := hframe .rs (by simp)
  have hnu : u.nrstAsserted = false := (hframe .nrst (by simp)).trans hn
  have hds : u.ds = _ := stepSilence_ds .one b.seq s
  have hu : u.HoldsIn .table older b1 younger := h.replace (by rw [hbt]) h.2.1
  have htwo : u.ds.film.get .two = s.ds.film.get .two := by rw [hds]; rfl
  have hbreaks : u.breaksNext .two = s.breaksNext .two := by rw [State.breaksNext, State.breaksNext, htwo, hrs]
  have hclock : u.bt.runClock = s.bt.runClock := by rw [hbt]
  have hbt2 := hu.stepSilence .two b.seq rfl
  have hds2 : (stepSilence .two b.seq u).ds = _ := stepSilence_ds .two b.seq u
  have hhands2 := stepSilence_hands .two b.seq hnu
  rw [hbreaks] at hbt2 hds2 hhands2
  rw [hclock] at hbt2
  rw [htwo, hrs] at hds2
  rw [hsilent]
  refine ⟨fun k => ?_, ?_, ?_, ?_, ?_⟩
  · show (stepSilence .two b.seq u).ds.film.get k = _
    rw [hds2, hds]
    cases k <;> rfl
  · show (stepSilence .two b.seq u).ds.netStock = _ ∧ (stepSilence .two b.seq u).ds.netKnown = _
    rw [hds2, hds]
    exact ⟨rfl, rfl⟩
  · exact hbt.trans hbt2
  · refine (stepSilence_hands .one b.seq hn).append hhands2 ?_
    cases s.breaksNext .one <;> cases s.breaksNext .two <;>
      simp [filmSetting, Setting.apart, dispenserInst]
  · exact (hframe.trans (stepSilence_frame .two b.seq u)).mono (by simp)

/-- The silence step leaves the drive in line. -/
theorem stepSilences_drive {s : State} (hn : s.nrstAsserted = false) (hd : DriveInv s) : DriveInv (stepSilences s) := by
  have hframe := stepSilences_frame s
  have hchamber : (stepSilences s).recordIn .chamber = s.recordIn .chamber := by
    cases hw : s.wrapping with
    | none => rw [stepSilences, hw]
    | some x =>
      obtain ⟨hr, hs, hx⟩ := State.wrapping_some (b := x.1) (w := x.2) hw
      obtain ⟨older, younger, hh⟩ := State.holdsIn_of_recordIn hr
      obtain ⟨-, -, hbt, -, -⟩ := stepSilences_does hn hh hs hx
      exact State.recordIn_replaced hh.1 (by rw [hbt]) (by simp [hh.2.1]) (by simp [hh.2.1])
  have hn' : (stepSilences s).nrstAsserted = false := (hframe .nrst (by simp)).trans hn
  exact hd.congr (hframe .cu (by simp)) (congrArg MachineInputs.stop (hframe .mi (by simp)))
    (congrArg PerChannel.d (hframe .mf (by simp))) hchamber (fun e => by simp [hn'] at e)

/-! ### The angle is apart from the rest of a pulse -/

theorem stepSilence_withAngle (k : Dispenser) (q n : Nat) (s : State) :
    stepSilence k q (s.withAngle n) = (stepSilence k q s).withAngle n := by
  rw [stepSilence_eq, stepSilence_eq]
  have hbreaks : (s.withAngle n).breaksNext k = s.breaksNext k := rfl
  rw [hbreaks]
  cases s.breaksNext k <;> rfl

theorem stepSilences_withAngle (n : Nat) (s : State) : stepSilences (s.withAngle n) = (stepSilences s).withAngle n := by
  have hw : (s.withAngle n).wrapping = s.wrapping := rfl
  unfold stepSilences
  rw [hw]
  cases s.wrapping with
  | none => rfl
  | some x => simp only [stepSilence_withAngle]

/-- A frame that lists MI does not see the angle. -/
theorem OnlyChanges.of_withAngle {changed : List Block} {s t : State} {n : Nat}
    (h : OnlyChanges changed (s.withAngle n) t) (hm : Block.mi ∈ changed) : OnlyChanges changed s t := by
  refine OnlyChanges.trans (fun k hk => ?_) h
  cases k with
  | arbiter p => exact ⟨rfl, rfl, rfl⟩
  | link p => cases p <;> rfl
  | mi => exact absurd hm hk
  | _ => rfl

/-- A lay position does not look at the angle. -/
theorem LayPosition.of_withAngle {k : Dispenser} {s t : State} {n : Nat} (h : LayPosition k (s.withAngle n) t) :
    LayPosition k s t := by
  obtain ⟨huncounted, hcounted⟩ := h
  refine ⟨fun hno => (huncounted hno).of_withAngle (by simp), fun older younger b w m hh hs hw hnet hl hrun hstop => ?_⟩
  obtain ⟨hbt, hk, hj, hnet', hhands, hframe⟩ := hcounted older younger b w m hh hs hw hnet hl hrun hstop
  exact ⟨hbt, hk, hj, hnet', hhands, hframe.of_withAngle (by simp)⟩

theorem LayPosition.refresh {k : Dispenser} {s t : State} (h : LayPosition k s t) :
    LayPosition k s (refreshAttention t) := by
  obtain ⟨huncounted, hcounted⟩ := h
  refine ⟨fun hno => (OnlyChanges_refreshAttention _ _ _).mpr (huncounted hno),
    fun older younger b w m hh hs hw hnet hl hrun hstop => ?_⟩
  obtain ⟨hbt, hk, hj, hnet', hhands, hframe⟩ := hcounted older younger b w m hh hs hw hnet hl hrun hstop
  exact ⟨hbt, hk, hj, hnet', hhands.refresh, (OnlyChanges_refreshAttention _ _ _).mpr hframe⟩

/-! ### The revolution and the cap (R121, R122) -/

/-- The cap on the record in its place. -/
theorem State.HoldsIn.capWrap {s : State} {older younger : List Bale} {b : Bale} {w : WrapSection}
    (h : s.HoldsIn .table older b younger) (hs : b.stage = .wrapping) (hw : b.wrap = some w) (hd : DriveInv s)
    (hn : s.nrstAsserted = false) (hcap : b.recipe.maxRevs ≤ w.revolutions) :
    Machine.capWrap s =
      Machine.finishWrap 2 older { b with flags := { b.flags with underwrapped := true } } younger s := by
  have hflagged := h.modified (fun x => { x with flags := { x.flags with underwrapped := true } }) h.2.1
  have hfinished := hflagged.finishWrap hs (hd.modifyRecord hn .table _ (fun _ => ⟨rfl, rfl⟩)) 2
  rw [Machine.capWrap, h.wrapping hs hw]
  dsimp only
  rw [if_pos hcap]
  refine hfinished.trans ?_
  rw [h.modifyRecord]
  rfl

theorem capWrap_uncapped {s : State} (h : ∀ b w, s.wrapping = some (b, w) → w.revolutions < b.recipe.maxRevs) :
    capWrap s = s := by
  unfold capWrap
  split
  next b w hw => exact if_neg (Nat.not_le.mpr (h b w hw))
  next => rfl

/-- The revolution part does what the statements say of it, where the drive is in line. -/
theorem stepRevolution_does {u : State} (hn : u.nrstAsserted = false) (hd : DriveInv u) :
    RevolutionStep u (refreshAttention (stepRevolution u)) := by
  intro older younger b w hh hw
  let turned : Bale := { b with wrap := some { w with revolutions := stepSaturating w.revolutions 255 } }
  let v : State := { u with bt := { u.bt with bales := older ++ turned :: younger } }
  have hstep : u.modifyWrap (fun w => { w with revolutions := stepSaturating w.revolutions 255 }) = v :=
    hh.modifyWrap hw _
  have hv : v.HoldsIn .table older turned younger := hh.replace rfl hh.2.1
  have hdv : DriveInv v := hstep ▸ hd.modifyWrap hn _
  rw [stepRevolution, hstep]
  refine ⟨fun hs hcap => ?_, fun huncapped => ?_⟩
  · rw [hv.capWrap hs rfl hdv hn hcap]
    refine ⟨rfl, ?_, ?_⟩
    · exact ((finishWrap_hands 2 older { turned with flags := { b.flags with underwrapped := true } } younger
        (s := v) hn).congr rfl rfl).refresh
    · rw [OnlyChanges_refreshAttention]
      exact ((OnlyChanges.of_bt u _).mono (by simp)).trans
        ((finishWrap_frame 2 older _ younger v).mono (by simp +contextual))
  · rw [capWrap_uncapped ?_]
    · refine ⟨rfl, ?_⟩
      rw [OnlyChanges_refreshAttention]
      exact (OnlyChanges.of_bt u _).mono (by simp)
    · intro c x hc
      obtain ⟨hr, hsc, hxc⟩ := State.wrapping_some hc
      rw [hv.recordIn] at hr
      cases hr
      cases hxc
      exact Nat.lt_of_not_le (fun hcap => huncapped ⟨hsc, hcap⟩)

/-! ### The pulses -/

/-- A table pulse in two steps: the silence step, then the dispenser-2 lay position where the angle is at it (R49). -/
theorem tablePulse_eq (s : State) : tablePulse s =
    let angle := angleAfter s.rs.constants.tablePulses s.mi.angle
    if angle = s.rs.constants.tablePulses / 2 then layPosition .two ((stepSilences s).withAngle angle)
    else (stepSilences s).withAngle angle := by
  simp only [tablePulse, stepSilences_withAngle]

theorem angleAfter_eq {tp angle : Nat} (h : angle < tp) :
    angleAfter tp angle = if angle + 1 = tp then 0 else angle + 1 := by
  unfold angleAfter
  (repeat' split) <;> omega

/-- A frame with nothing but the angle written. -/
theorem State.withAngle_frame (s : State) (n : Nat) : OnlyChanges [.mi] s (s.withAngle n) :=
  OnlyChanges.of_withAngle (.refl _ (s.withAngle n)) (by simp)

theorem tablePulse_mi (s : State) :
    (tablePulse s).mi = { s.mi with angle := angleAfter s.rs.constants.tablePulses s.mi.angle } :=
  tablePulse_frame s .mi (by simp [recordBlocks, arbiters])

theorem tableIndex_mi (s : State) : (tableIndex s).mi = { s.mi with angle := 0 } :=
  tableIndex_frame s .mi (by simp [recordBlocks, arbiters])

theorem tablePulse_unwrapping {s : State} (h : s.wrapping = none) :
    tablePulse s = s.withAngle (angleAfter s.rs.constants.tablePulses s.mi.angle) := by
  have hsilent : stepSilences s = s := by rw [stepSilences, h]
  rw [tablePulse_eq, hsilent]
  dsimp only
  split
  · exact layPosition_uncounted (.inl h)
  · rfl

theorem tableIndex_unwrapping {s : State} (h : s.wrapping = none) : tableIndex s = s.withAngle 0 := by
  unfold tableIndex
  dsimp only
  rw [h]
  exact layPosition_uncounted (.inl h)

end Sys2Proof.Machine

namespace Sys2Proof.Proofs

open Machine

/-- Settles O12: the angle commutes with the silence step, so the pulse is the silence step and then, at its position, the
lay of dispenser 2. -/
theorem tablePulse : Obligations.TablePulse := by
  intro s hn htp hangle
  have hrun : exec .tablePulse s = .next (refreshAttention (Machine.tablePulse s)) := by
    simp [exec, execTablePulse, hn]
  refine .intro hrun ?_
  simp only [refreshAttention_mi, OnlyChanges_refreshAttention, tablePulse_mi, angleAfter_eq hangle]
  refine ⟨trivial, fun i => by cases i <;> rfl, fun hw => ?_, fun older younger b w _ hd hh hs hw => ?_⟩
  · rw [tablePulse_unwrapping hw]
    exact s.withAngle_frame _
  · have hframe := stepSilences_frame s
    have hnu : (stepSilences s).nrstAsserted = false := (hframe .nrst (by simp)).trans hn
    refine ⟨stepSilences s, stepSilences_does hn hh hs hw, fun hno => ?_, fun hlay => ?_⟩
    · rw [tablePulse_eq, angleAfter_eq hangle]
      dsimp only
      rw [if_neg hno]
      exact State.withAngle_frame _ _
    · rw [tablePulse_eq, angleAfter_eq hangle]
      dsimp only
      rw [if_pos hlay]
      generalize (if s.mi.angle + 1 = s.rs.constants.tablePulses then 0 else s.mi.angle + 1) = angle
      have hdu : DriveInv ((stepSilences s).withAngle angle) :=
        (stepSilences_drive hn hd).congr rfl rfl rfl rfl (fun e => by simp [hnu] at e)
      exact (layPosition_does .two (s := (stepSilences s).withAngle angle) hnu hdu).of_withAngle.refresh

/-- Settles O13: the lay position of dispenser 1 comes first, and the revolution is of the record it left. -/
theorem tableIndex : Obligations.TableIndex := by
  intro s hn
  have hrun : exec .tableIndex s = .next (refreshAttention (Machine.tableIndex s)) := by
    simp [exec, execTableIndex, hn]
  refine .intro hrun ?_
  simp only [refreshAttention_mi, OnlyChanges_refreshAttention, tableIndex_mi]
  refine ⟨trivial, fun i => by cases i <;> rfl, fun hw => ?_, fun hw _ hd => ?_⟩
  · rw [tableIndex_unwrapping hw]
    exact s.withAngle_frame _
  · have hda : DriveInv (s.withAngle 0) := hd.congr rfl rfl rfl rfl (fun e => hd.2.2 e)
    have hlaid := layPosition_does .one (s := s.withAngle 0) hn hda
    have hnl : (layPosition .one (s.withAngle 0)).nrstAsserted = false :=
      (layPosition_frame .one (s.withAngle 0) .nrst (by simp [arbiters])).trans hn
    have hpulse : Machine.tableIndex s = stepRevolution (layPosition .one (s.withAngle 0)) := if_pos hw
    rw [hpulse]
    exact ⟨_, hlaid.of_withAngle, stepRevolution_does hnl (layPosition_drive .one (s := s.withAngle 0) hn hda)⟩

end Sys2Proof.Proofs
end

section
/-! Proofs. The requests that read a channel, the machine constants and the stocks: READ CHANNEL (R41), READ MACHINE (R62),
READ STOCK (R151). -/

namespace Sys2Proof.Machine

/-! ### The channel a request names -/

theorem channelOfNumber_eq {k : Nat} {ch : Channel} (h : k = channelNumber ch) : channelOfNumber k = some ch := by
  subst h
  cases ch <;> rfl

theorem channelOfNumber_none {k : Nat} (h : 2 < k) : channelOfNumber k = none := by
  unfold channelOfNumber
  split <;> first | omega | rfl

theorem channelNumber_le (ch : Channel) : channelNumber ch ≤ 2 := by cases ch <;> decide

/-! ### What the requests return -/

theorem ChannelRecord.marks_eq (c : ChannelRecord) :
    c.marks = c.stale.toNat + 2 * c.saturated.toNat + 4 * c.zeroing.toNat := by
  simp only [ChannelRecord.marks, Machine.marks]
  omega

theorem PortSet.marks_eq (x : PortSet) : x.marks = x.a.toNat + 2 * x.b.toNat + 4 * x.c.toNat := by
  simp only [PortSet.marks, Machine.marks]
  omega

theorem State.lowStocks_eq (s : State) : s.lowStocks = lowSet s := by
  simp only [State.lowStocks, lowSet, marks]
  omega

/-! ### Requests that only read -/

/-- A request that reads leaves the state as the taking left it. -/
theorem runs_of_reads {i : Instr} {p : Port} {c : Command} {payload items : List Byte} {s : State}
    (hr : requestRow i = some (p, c.byte, payload)) (hn : s.nrstAsserted = false) (hp : c.permits p = true)
    (hl : c.lengthFits payload = true)
    (hc : ownBlock c p payload (beforeTake p c.byte s) = (beforeTake p c.byte s, answer items)) :
    Runs i s (fun t => Answered p c .ok items t ∧ OnlyChanges (takeBlocks p s) s t) :=
  runs_of hr hn hp hl hc
    ⟨by simp [Answered, answer, Command.byte], by simpa using request_frame (changed := []) (.refl _ _)⟩

theorem readMachine_runs (p : Port) {n : Byte} {items : List Byte} {s : State} (hn : s.nrstAsserted = false)
    (hc : ownBlock .readMachine p [n] (beforeTake p Command.readMachine.byte s) =
      (beforeTake p Command.readMachine.byte s, answer items)) :
    Runs (.readMachine p [n]) s (fun t =>
      Answered p .readMachine .ok items t ∧ OnlyChanges (takeBlocks p s) s t) :=
  runs_of_reads (c := .readMachine) rfl hn (by cases p <;> rfl) rfl hc

/-- Settles O32: each block answers from the state the taking left, which is the state before it in all they read. -/
theorem readChannelMachineAndStock : Obligations.ReadChannelMachineAndStock := by
  intro p n s hn
  refine ⟨fun ch h => ⟨?_, readMachine_runs p hn ?_⟩, fun h => readMachine_runs p hn ?_, fun h => ?_, fun h => ?_, ?_⟩
  · refine runs_of_reads (c := .readChannel) rfl hn (by cases p <;> rfl) rfl ?_
    simp [ownBlock, cmdReadChannel, nat1_single, channelOfNumber_eq h, ChannelRecord.marks_eq, PortSet.marks_eq]
  · have hgroup : ¬ 3 < n.toNat := by
      have := channelNumber_le ch
      omega
    simp [ownBlock, cmdReadMachine, groupChannel, hgroup, nat1_single, channelOfNumber_eq h, pairBlock]
  · simp [ownBlock, cmdReadMachine, groupChannel, nat1_single, h, channelOfNumber_none, constantsBlock]
  · refine refused_of (c := .readChannel) rfl hn (by cases p <;> rfl) rfl ?_
    simp [ownBlock, cmdReadChannel, nat1_single, channelOfNumber_none h]
  · refine refused_of (c := .readMachine) rfl hn (by cases p <;> rfl) rfl ?_
    simp [ownBlock, cmdReadMachine, nat1_single, h]
  · refine runs_of_reads (c := .readStock) rfl hn (by cases p <;> rfl) rfl ?_
    have hlow : (beforeTake p Command.readStock.byte s).lowStocks = lowSet s := by
      rw [State.lowStocks_eq]
      simp [lowSet]
    simp [ownBlock, cmdReadStock, DispenserRecord.items, hlow]

end Sys2Proof.Machine
end

section
/-! Proofs. The requests that change a channel: HOLD ZERO, RELEASE ZERO and PREZERO (R38, R39), and PORT RESET with the rest
of what it clears (R42, R181, R201). -/

namespace Sys2Proof.Machine

/-! ### HOLD ZERO, RELEASE ZERO, PREZERO (R38, R39) -/

theorem zeroAnswer_eq (c : ChannelRecord) : zeroAnswer c = answer (zeroItems c) := by
  rw [zeroAnswer, zeroItems, PortSet.marks_eq]
  rfl

theorem Runs.imp {i : Instr} {s : State} {after after' : State → Prop} (h : Runs i s after)
    (hi : ∀ t, after t → after' t) : Runs i s after' := by
  obtain ⟨t, he, ha⟩ := h
  exact ⟨t, he, hi t ha⟩

/-- A request that changes one channel's record. -/
theorem runs_of_channel {i : Instr} {p : Port} {c : Command} {payload items : List Byte} {s : State} {ch : Channel}
    {f : ChannelRecord → ChannelRecord} (hr : requestRow i = some (p, c.byte, payload)) (hn : s.nrstAsserted = false)
    (hp : c.permits p = true) (hl : c.lengthFits payload = true)
    (hc : ownBlock c p payload (beforeTake p c.byte s) =
      ((beforeTake p c.byte s).modifyChannel ch f, answer items)) :
    Runs i s (fun t => t.mf.get ch = f (s.mf.get ch) ∧ (∀ other, other ≠ ch → t.mf.get other = s.mf.get other) ∧
      Answered p c .ok items t ∧ OnlyChanges (.mf :: takeBlocks p s) s t) :=
  runs_of hr hn hp hl hc ⟨by simp, fun other hother => by simp [hother], by simp [Answered, answer, Command.byte],
    request_frame (changed := [.mf]) (State.modifyChannel_frame _ ch f)⟩

/-- Without the port the set is empty exactly where no other port is in it. -/
theorem PortSet.put_false_eq_iff (x : PortSet) (p : Port) :
    x.put p false = ⟨false, false, false⟩ ↔ ∀ q, q ≠ p → x.has q = false := by
  constructor
  · intro h q hq
    have hhas : (x.put p false).has q = false := by
      rw [h]
      cases q <;> rfl
    simpa [hq] using hhas
  · intro h
    obtain ⟨a, b, c⟩ := x
    have ha := h .a
    have hb := h .b
    have hc := h .c
    cases p <;> simp_all [PortSet.put, PortSet.has]

/-- A release is a removal, and an automatic start where it empties the set (R35, R38; log entry 24). -/
theorem ChannelRecord.releaseBy_releases (p : Port) (c : ChannelRecord) : Releases p c (c.releaseBy p) := by
  refine ⟨fun hout => if_neg (by simp [hout]), fun hin => ?_⟩
  have hrelease : c.releaseBy p = { c with hold := c.hold.put p false }.evalZero := if_pos hin
  rw [hrelease]
  refine ⟨by simp, fun q hq => by simp [hq], fun hothers hd hz => ?_, fun hno => ?_⟩
  · have hempty := (c.hold.put_false_eq_iff p).mpr hothers
    rw [ChannelRecord.evalZero_begins (c := { c with hold := c.hold.put p false }) hd hempty hz, hempty]
    rfl
  · rw [← c.hold.put_false_eq_iff] at hno
    rw [ChannelRecord.evalZero_stays (c := { c with hold := c.hold.put p false })
      (fun ⟨hd, hh, hz⟩ => hno ⟨hh, hd, hz⟩)]

/-- A channel number out of range is refused by all three commands. -/
theorem zeroCommands_badValue (p : Port) {n : Byte} {s : State} (hn : s.nrstAsserted = false) (h : 2 < n.toNat) :
    Runs (.holdZero p [n]) s (Refused p .holdZero .badValue s) ∧
    Runs (.releaseZero p [n]) s (Refused p .releaseZero .badValue s) ∧
    Runs (.prezero p [n]) s (Refused p .prezero .badValue s) := by
  refine ⟨refused_of (c := .holdZero) rfl hn (by cases p <;> rfl) rfl ?_,
    refused_of (c := .releaseZero) rfl hn (by cases p <;> rfl) rfl ?_,
    refused_of (c := .prezero) rfl hn (by cases p <;> rfl) rfl ?_⟩
  · simp [ownBlock, cmdHoldZero, nat1_single, channelOfNumber_none h]
  · simp [ownBlock, cmdReleaseZero, nat1_single, channelOfNumber_none h]
  · simp [ownBlock, cmdPrezero, nat1_single, channelOfNumber_none h]

/-- Settles O41: each command changes the record of the channel it names, by an addition, a removal or a start. -/
theorem zeroCommands : Obligations.ZeroCommands := by
  intro p n s hn
  refine ⟨zeroCommands_badValue p hn, fun ch h => ⟨?_, ?_, fun hz => ?_, fun hz hd => ?_, fun hz hd => ?_⟩⟩
  · refine Runs.imp (runs_of_channel (c := .holdZero) (ch := ch) (f := (·.holdBy p)) rfl hn (by cases p <;> rfl) rfl
      (items := zeroItems ((s.mf.get ch).holdBy p)) ?_) (fun t ⟨hch, hothers, hanswer, hframe⟩ => ?_)
    · simp [ownBlock, cmdHoldZero, nat1_single, channelOfNumber_eq h, zeroAnswer_eq]
    · rw [hch]
      exact ⟨by simp [ChannelRecord.holdBy], fun q hq => by simp [ChannelRecord.holdBy, hq], rfl, hothers, hanswer,
        hframe⟩
  · refine Runs.imp (runs_of_channel (c := .releaseZero) (ch := ch) (f := (·.releaseBy p)) rfl hn (by cases p <;> rfl)
      rfl (items := zeroItems ((s.mf.get ch).releaseBy p)) ?_) (fun t ⟨hch, hothers, hanswer, hframe⟩ => ?_)
    · simp [ownBlock, cmdReleaseZero, nat1_single, channelOfNumber_eq h, zeroAnswer_eq]
    · rw [hch]
      exact ⟨(s.mf.get ch).releaseBy_releases p, hothers, hanswer, hframe⟩
  · refine refused_of (c := .prezero) rfl hn (by cases p <;> rfl) rfl ?_
    simp [ownBlock, cmdPrezero, nat1_single, channelOfNumber_eq h, hz]
  · refine refused_of (c := .prezero) rfl hn (by cases p <;> rfl) rfl ?_
    simp [ownBlock, cmdPrezero, nat1_single, channelOfNumber_eq h, hz, hd]
  · refine runs_of_channel (c := .prezero) (ch := ch) (f := ChannelRecord.beginZero) rfl hn (by cases p <;> rfl) rfl ?_
    have hopen : ¬ (s.mf.get ch).debt ≤ -8 := by omega
    simp [ownBlock, cmdPrezero, nat1_single, channelOfNumber_eq h, hz, hopen]

/-! ### PORT RESET (R42, R181, R201) -/

/-- The taking of a request touches no arbiter but the port's own. -/
theorem takeBlocks_subset (p : Port) (s : State) : ∀ k ∈ takeBlocks p s, k = .link p ∨ k = .arbiter p := by
  intro k hk
  unfold takeBlocks at hk
  split at hk
  next hl =>
    have hp : p = .c := by
      cases p <;> first | rfl | simp [State.loses] at hl
    subst hp
    simpa using hk
  next => exact .inl (by simpa using hk)

theorem cmdPortReset_frame (p : Port) (pl : List Byte) (s : State) :
    OnlyChanges [.link p, .arbiter p, .mf] s (cmdPortReset p pl s).1 := by
  intro k hk
  cases k with
  | arbiter q => cases p <;> cases q <;> first | exact ⟨rfl, rfl, rfl⟩ | simp at hk
  | link q => cases p <;> cases q <;> first | rfl | simp at hk
  | mf => simp at hk
  | _ => cases p <;> rfl

/-- The port's latches and its current notice are cleared, its plan kept (R181). -/
theorem cmdPortReset_arbiter (p : Port) (pl : List Byte) (s : State) : (cmdPortReset p pl s).1.na.get p =
    { s.na.get p with latches := clearLatches, current := none } := by
  cases p <;> rfl

theorem clearLatches_get (src : Source) (i : Fin 4) : (clearLatches.get src).get i = none := by
  have hclear : ∀ j : Fin 4, clearPlaces.get j = none := by decide
  have hplaces : clearLatches.get src = clearPlaces := by cases src <;> rfl
  rw [hplaces, hclear]

/-- The link unit of port A or B as PORT RESET and its own response leave it (R201). -/
theorem cmdPortReset_line (l : LinePort) (pl : List Byte) (r : Response) (s : State) :
    (refreshAttention (deliver (linePort l) r (cmdPortReset (linePort l) pl s).1)).line l =
      { idleLine with tx := some r } := by
  cases l <;> rfl

theorem cmdPortReset_target (pl : List Byte) (r : Response) (s : State) :
    (refreshAttention (deliver .c r (cmdPortReset .c pl s).1)).lc =
      { idleTarget with buffer := some r, acks := s.lc.acks, sda := s.lc.sda } := rfl

/-- Settles O40: the block clears the link unit and the arbiter of the port and releases its holds. -/
theorem portReset : Obligations.PortReset := by
  intro p s hn
  let u := beforeTake p Command.portReset.byte s
  let r : Response := ⟨Command.portReset.byte, answer []⟩
  let v := (cmdPortReset p [] u).1
  have harbiter : (Block.arbiter p).same v (refreshAttention (deliver p r v)) :=
    (Block.same_refreshAttention _ _ _).mpr (deliver_frame p r v (.arbiter p) (by simp))
  obtain ⟨hlatches, hplan, hcurrent⟩ := harbiter
  rw [cmdPortReset_arbiter] at hlatches hplan hcurrent
  refine runs_of (c := .portReset) (v := v) rfl hn (by cases p <;> rfl) rfl rfl
    ⟨by simp [Answered, answer, Command.byte], ?_, ?_, fun src i => ?_, hcurrent,
      hplan.trans (beforeTake_plan_current p p _ s).1, fun ch => ?_, ?_⟩
  · rintro l rfl
    rw [cmdPortReset_line]
    rfl
  · rintro rfl
    have hlc := (beforeTake_link .c Command.portReset.byte s).2 rfl
    rw [cmdPortReset_target, hlc]
    rfl
  · rw [State.latch, hlatches, clearLatches_get]
  · have hmf : (refreshAttention (deliver p r v)).mf.get ch = (s.mf.get ch).releaseBy p := by
      rw [after_mf, cmdPortReset_mf, beforeTake_mf]
    rw [hmf]
    exact (s.mf.get ch).releaseBy_releases p
  · refine (request_frame (cmdPortReset_frame p [] u)).mono (fun k hk => ?_)
    rcases List.mem_append.mp hk with hk | hk
    · exact hk
    · rcases takeBlocks_subset p s k hk with rfl | rfl <;> simp

end Sys2Proof.Machine
end

section
/-! Proofs. The ranges of the recipes and of the machine constants (Tables 3-1 to 3-3), field by field, and what the
alterations of R55 and R60 make of them. -/

namespace Sys2Proof.Machine

/-! ### One altered item -/

/-- An altered item is the written value clamped; one not altered is the old one (R55, R60). -/
theorem alterNat_eq (alter k w old : Nat) {lo hi : Nat} (h : lo ≤ hi) :
    alterNat (hasMark alter k) w old lo hi = if alter.testBit k then max lo (min hi w) else old := by
  rw [alterNat, hasMark_eq, clampNat_eq w lo hi h]

/-! ### Recipes (R55, R63) -/

/-- Every field is within Table 3-1; R63 asks M1 not above M2 besides. -/
def Recipe.InRange (r : Recipe) : Prop :=
  ∀ k, 1 ≤ k → k ≤ 15 → (recipeRange k).1 ≤ recipeField r k ∧ recipeField r k ≤ (recipeRange k).2

theorem Recipe.Legal.inRange {r : Recipe} (h : r.Legal) : r.InRange := by
  obtain ⟨hdiameter, hdc, hpc, hps, hr, hnt, htail, hbands, hm2, hl1, hl2, hl3, hneck, hs, hrevs⟩ := h
  intro k h1 h15
  interval_cases k <;> simp only [recipeRange, recipeField] <;> omega

theorem bandStep_eq (r : Recipe) : bandStep r = { r with m1 := min r.m1 r.m2 } := by
  unfold bandStep
  split
  next h => rw [Nat.min_eq_right h.le]
  next h => rw [Nat.min_eq_left (Nat.le_of_not_lt h)]

/-- M1 lowered to M2 is all that fields within Table 3-1 lack. -/
theorem Recipe.InRange.bandStep {r : Recipe} (h : r.InRange) : (bandStep r).Legal := by
  rw [bandStep_eq]
  refine ⟨h 1 ?_ ?_, (h 2 ?_ ?_).2, (h 3 ?_ ?_).2, (h 4 ?_ ?_).2, h 5 ?_ ?_, h 6 ?_ ?_, (h 7 ?_ ?_).2,
    min_le_right _ _, (h 9 ?_ ?_).2, (h 10 ?_ ?_).2, (h 11 ?_ ?_).2, (h 12 ?_ ?_).2, (h 13 ?_ ?_).2, h 14 ?_ ?_,
    h 15 ?_ ?_⟩ <;> decide

theorem recipeRange_le {k : Nat} (h1 : 1 ≤ k) (h15 : k ≤ 15) : (recipeRange k).1 ≤ (recipeRange k).2 := by
  interval_cases k <;> decide

theorem alterRecipe_alters (start w : Recipe) (alter : Nat) :
    AltersRecipe start w alter (alterRecipe start w alter) := by
  intro k h1 h15
  interval_cases k <;> exact alterNat_eq _ _ _ _ (by decide)

/-- An alteration of fields within Table 3-1 leaves them within it. -/
theorem AltersRecipe.inRange {start w a : Recipe} {alter : Nat} (ha : AltersRecipe start w alter a)
    (h : start.InRange) : a.InRange := by
  intro k h1 h15
  have hrange := recipeRange_le h1 h15
  rw [ha k h1 h15]
  split
  · omega
  · exact h k h1 h15

/-- What LOAD RECIPE stores is legal, whatever was written and altered (R55). -/
theorem loadSlot_legal {old : RecipeSlot} (h : old.recipe.Legal) (w : Recipe) (alter valid : Nat) :
    (loadSlot old w alter valid).recipe.Legal := by
  have hstart : Recipe.Legal (if old.valid then old.recipe else defaultRecipe) := by
    split
    · exact h
    · exact defaultRecipe_legal
  exact ((alterRecipe_alters _ w alter).inRange hstart.inRange).bandStep

/-! ### Group 3 (R60, R61) -/

/-- Every constant of group 3 is within Table 3-2; R60 asks `op_hyst` below `op_limit` besides. -/
def Constants.InRange (c : Constants) : Prop :=
  ∀ k, k ≤ 12 → (constantRange k).1 ≤ constantField c k ∧ constantField c k ≤ (constantRange k).2

theorem Constants.Legal.inRange {c : Constants} (h : c.Legal) : c.InRange := by
  obtain ⟨hbale, hfilm, hroll, hnet, hpulses, htransfer, hcatch, hlimit, hhyst, hoffset, hgain, hnetLow, hfilmLow⟩ := h
  intro k hk
  interval_cases k <;> simp only [constantRange, constantField] <;> omega

theorem hystStep_eq (c : Constants) :
    hystStep c = { c with opHyst := if c.opLimit ≤ c.opHyst then c.opLimit - 1 else c.opHyst } := by
  unfold hystStep
  split <;> rfl

/-- A range of `Int` bounds as the `Nat` bounds it was made from. -/
theorem range_of_cast {lo hi n : Nat} (h : (lo : Int) ≤ n ∧ (n : Int) ≤ hi) : lo ≤ n ∧ n ≤ hi := by omega

/-- `op_hyst` lowered below `op_limit` is all that constants within Table 3-2 lack. -/
theorem Constants.InRange.hystStep {c : Constants} (h : c.InRange) : (hystStep c).Legal := by
  have hlimit : 1000 ≤ c.opLimit ∧ c.opLimit ≤ 25000 := range_of_cast (h 7 (by decide))
  have hhyst : 0 ≤ c.opHyst ∧ c.opHyst ≤ 5000 := range_of_cast (h 8 (by decide))
  have hlowered : (if c.opLimit ≤ c.opHyst then c.opLimit - 1 else c.opHyst) ≤ 5000 ∧
      (if c.opLimit ≤ c.opHyst then c.opLimit - 1 else c.opHyst) < c.opLimit := by
    split <;> omega
  rw [hystStep_eq]
  refine ⟨range_of_cast (h 0 ?_), range_of_cast (h 1 ?_), range_of_cast (h 2 ?_), range_of_cast (h 3 ?_),
    range_of_cast (h 4 ?_), range_of_cast (h 5 ?_), range_of_cast (h 6 ?_), hlimit, hlowered, h 9 ?_,
    (range_of_cast (lo := 0) (h 10 ?_)).2, (range_of_cast (lo := 0) (h 11 ?_)).2,
    (range_of_cast (lo := 0) (h 12 ?_)).2⟩ <;> decide

theorem constantRange_le {k : Nat} (hk : k ≤ 12) : (constantRange k).1 ≤ (constantRange k).2 := by
  interval_cases k <;> decide

theorem alterConstants_alters (old w : Constants) (alter : Nat) :
    AltersConstants old w alter (alterConstants old w alter) := by
  intro k hk
  have hnat : ∀ {lo hi written before : Nat}, lo ≤ hi →
      ((alterNat (hasMark alter k) written before lo hi : Nat) : Int) =
        if alter.testBit k then max (lo : Int) (min (hi : Int) (written : Int)) else (before : Int) := by
    intro lo hi written before h
    rw [alterNat_eq _ _ _ _ h]
    split <;> push_cast <;> rfl
  obtain rfl | hsigned := eq_or_ne k 9
  · show (if hasMark alter 9 then _ else _) = _
    rw [hasMark_eq, clampInt_eq _ _ _ (by decide)]
    rfl
  · interval_cases k <;> first | exact absurd rfl hsigned | exact hnat (by decide)

theorem AltersConstants.inRange {old w a : Constants} {alter : Nat} (ha : AltersConstants old w alter a)
    (h : old.InRange) : a.InRange := by
  intro k hk
  have hrange := constantRange_le hk
  rw [ha k hk]
  split
  · omega
  · exact h k hk

/-! ### Groups 0 to 2 (R60) -/

theorem legalPeriod_mem (n : Nat) : legalPeriod n ∈ [10, 20, 50, 100, 200] := by
  unfold legalPeriod
  (repeat' split) <;> decide

/-- The pair a SET MACHINE stores: only -32768 lies outside the raw codes' range. -/
theorem clampPair_eq (top : Nat) (pl : List Byte) (at_ : Nat) : clampPair top (readPairBlock pl at_) =
    ⟨rawOf pl at_, min (nat2 pl (at_ + 2)) top, rawOf pl (at_ + 4), min (nat2 pl (at_ + 6)) top⟩ := by
  have h0 := int2_range pl at_
  have h1 := int2_range pl (at_ + 4)
  simp only [clampPair, readPairBlock, rawOf, Calibration.mk.injEq]
  rw [clampInt_eq _ _ _ (by decide), clampInt_eq _ _ _ (by decide), clampNat_eq _ _ _ (by omega),
    clampNat_eq _ _ _ (by omega)]
  omega

theorem alterChannel_legal {top : Nat} {old : ChannelConstants} (h : old.Legal top) (alter period : Nat)
    {pair : Calibration}
    (hraw : ¬ (hasMark alter 1 = true ∧ (clampPair top pair).raw0 = (clampPair top pair).raw1)) :
    (alterChannel top old alter period pair).Legal top := by
  obtain ⟨hperiod, hpair⟩ := h
  constructor
  · show (if _ then _ else _) ∈ _
    split
    · exact legalPeriod_mem period
    · exact hperiod
  · simp only [alterChannel]
    split
    next halter =>
      have hclamp : ∀ v : Int, -32767 ≤ clampInt v (-32767) 32767 ∧ clampInt v (-32767) 32767 ≤ 32767 := fun v => by
        rw [clampInt_eq _ _ _ (by decide)]
        omega
      exact ⟨fun e => hraw ⟨halter, e⟩, hclamp _, hclamp _, (clampNat_range _ _ _ (Nat.zero_le _)).2,
        (clampNat_range _ _ _ (Nat.zero_le _)).2⟩
    next => exact hpair

end Sys2Proof.Machine
end

section
/-! Proofs. The recipe store, the snapshots and the table angle (R48, R53, R58, R63): which operations and events keep
them as they are, and that the pulses of the table keep them in range. -/

namespace Sys2Proof.Machine

/-! ### What the ranges are said of -/

/-- The snapshots of the live records. -/
def State.snapshots (s : State) : List Recipe := s.bt.bales.map Bale.recipe

/-- RS and the table angle are as they were, and every snapshot was one before. A closure takes its snapshot away. -/
structure KeepsRecipes (s t : State) : Prop where
  store : t.rs = s.rs
  angle : t.mi.angle = s.mi.angle
  snapshots : t.snapshots ⊆ s.snapshots

theorem RecipeInv.snapshots {s : State} (h : RecipeInv s) : ∀ r ∈ s.snapshots, r.Legal := by
  obtain ⟨-, -, hsnap, -⟩ := h
  intro r hr
  obtain ⟨b, hb, rfl⟩ := List.mem_map.mp hr
  exact hsnap b hb

theorem RecipeInv.keeps {s t : State} (h : RecipeInv s) (hk : KeepsRecipes s t) : RecipeInv t := by
  have hsnap : ∀ b ∈ t.bt.bales, b.recipe.Legal := fun b hb =>
    h.snapshots _ (hk.snapshots (List.mem_map_of_mem hb))
  obtain ⟨hlen, hslots, -, hconst, hchan, hangle⟩ := h
  unfold RecipeInv
  rw [hk.store, hk.angle]
  exact ⟨hlen, hslots, hsnap, hconst, hchan, hangle⟩

theorem KeepsRecipes.refl (s : State) : KeepsRecipes s s := ⟨rfl, rfl, List.Subset.refl _⟩

theorem KeepsRecipes.trans {s t u : State} (h1 : KeepsRecipes s t) (h2 : KeepsRecipes t u) : KeepsRecipes s u :=
  ⟨h2.store.trans h1.store, h2.angle.trans h1.angle, fun _ h => h1.snapshots (h2.snapshots h)⟩

/-- A change that reaches neither the records nor RS nor the table angle. -/
theorem KeepsRecipes.of_eq {s t : State} (hrs : t.rs = s.rs) (hangle : t.mi.angle = s.mi.angle)
    (hbt : t.bt = s.bt) : KeepsRecipes s t :=
  ⟨hrs, hangle, by rw [State.snapshots, State.snapshots, hbt]; exact List.Subset.refl _⟩

/-- A further change of other parts. -/
theorem KeepsRecipes.still {s t u : State} (h : KeepsRecipes s t) (hrs : u.rs = t.rs)
    (hangle : u.mi.angle = t.mi.angle) (hbt : u.bt = t.bt) : KeepsRecipes s u :=
  h.trans (.of_eq hrs hangle hbt)

/-- An earlier change of other parts. -/
theorem KeepsRecipes.after {s t u : State} (h : KeepsRecipes t u) (hrs : t.rs = s.rs)
    (hangle : t.mi.angle = s.mi.angle) (hbt : t.bt = s.bt) : KeepsRecipes s u :=
  (KeepsRecipes.of_eq hrs hangle hbt).trans h

/-! ### Changes of the records -/

theorem map_recipe_modifyZone (z : Zone) {f : Bale → Bale} (hf : ∀ b, (f b).recipe = b.recipe) (bales : List Bale) :
    (modifyZone z f bales).map Bale.recipe = bales.map Bale.recipe := by
  induction bales with
  | nil => rfl
  | cons b bs ih =>
    rw [modifyZone]
    split
    · simp [hf]
    · simp [ih]

theorem removeZone_sublist (z : Zone) (bales : List Bale) : (removeZone z bales).Sublist bales := by
  induction bales with
  | nil => exact .slnil
  | cons b bs ih =>
    rw [removeZone]
    split
    · exact List.sublist_cons_self b bs
    · exact ih.cons_cons b

/-- A snapshot is never written (R63). -/
theorem State.modifyRecord_keeps (s : State) (z : Zone) {f : Bale → Bale} (hf : ∀ b, (f b).recipe = b.recipe) :
    KeepsRecipes s (s.modifyRecord z f) := by
  refine ⟨rfl, rfl, ?_⟩
  rw [State.snapshots, State.modifyRecord_bales, map_recipe_modifyZone z hf]
  exact List.Subset.refl _

theorem State.flagRecord_keeps (s : State) (z : Zone) (f : RecordFlags → RecordFlags) :
    KeepsRecipes s (s.flagRecord z f) := s.modifyRecord_keeps z (fun _ => rfl)

theorem State.modifyWrap_keeps (s : State) (f : WrapSection → WrapSection) : KeepsRecipes s (s.modifyWrap f) :=
  s.modifyRecord_keeps .table (fun _ => rfl)

theorem setLatch_keeps (p : Port) (src : Source) (i : Fin 4) (d : Nat) (s : State) :
    KeepsRecipes s (setLatch p src i d s) := .of_eq rfl rfl rfl

theorem enterStage_keeps (z : Zone) (st : Stage) (s : State) : KeepsRecipes s (enterStage z st s) := by
  unfold enterStage
  split
  · exact (s.modifyRecord_keeps z (f := fun x => x.toStage st s.bt.runClock) (fun _ => rfl)).still (by simp) (by simp)
      (by simp)
  · exact .refl s

theorem grantEject_keeps (queued : Bool) (s : State) : KeepsRecipes s (grantEject queued s) := by
  unfold grantEject
  split
  next b _ =>
    have hemptied := (s.modifyRecord_keeps .chamber (f := fun x => { x with ejectRequested := false })
      (fun _ => rfl)).still (u := { s.modifyRecord .chamber (fun x => { x with ejectRequested := false }) with
        hu := { s.hu with ejectSlot := none } }) rfl rfl rfl
    have hmoved := hemptied.trans (enterStage_keeps .chamber .ejecting _)
    cases queued <;> exact hmoved.still rfl rfl rfl
  next => exact .refl s

theorem evalGrant_keeps (s : State) : KeepsRecipes s (evalGrant s) := by
  unfold evalGrant
  split
  · exact grantEject_keeps true s
  · exact .refl s

theorem closureNeighbours_keeps (z : Zone) (q : Nat) (reason : CloseReason) (s : State) :
    KeepsRecipes s (closureNeighbours z q reason s) := by
  cases z with
  | pre => exact .refl s
  | chamber => exact .of_eq rfl rfl rfl
  | table =>
    have hfreed : KeepsRecipes s { s with hu := { s.hu with reservation := none, transferTimer := .stopped } } :=
      .of_eq rfl rfl rfl
    unfold closureNeighbours
    dsimp only
    split
    · exact hfreed
    · exact hfreed.trans (evalGrant_keeps _)

theorem closeRecord_keeps (z : Zone) (reason : CloseReason) (s : State) :
    KeepsRecipes s (closeRecord z reason s) := by
  unfold closeRecord
  split
  next b _ =>
    have hremoved : KeepsRecipes s { s with
        bt := { s.bt with bales := removeZone z s.bt.bales }
        rq := s.rq.offer { b with closed := some s.bt.runClock, closeReason := some reason } } :=
      ⟨rfl, rfl, ((removeZone_sublist z s.bt.bales).map Bale.recipe).subset⟩
    refine KeepsRecipes.trans ?_ (closureNeighbours_keeps z b.seq reason _)
    split
    · exact hremoved
    · exact hremoved.still rfl rfl rfl
  next => exact .refl s

theorem returnToForming_keeps (s : State) : KeepsRecipes s (returnToForming s) :=
  (enterStage_keeps .chamber .forming _).after rfl rfl rfl

/-! ### The wrap -/

theorem chargeFilm_keeps (k : Dispenser) (b : Bale) (s : State) : KeepsRecipes s (chargeFilm k b s) := by
  unfold chargeFilm
  dsimp only
  have hcharged := fun f g => (s.modifyWrap_keeps f).still (u := (s.modifyWrap f).modifyDispenser k g) rfl rfl rfl
  split
  · exact (hcharged _ _).trans (State.flagRecord_keeps _ _ _)
  · exact hcharged _ _

theorem testCompletion_keeps (s : State) : KeepsRecipes s (testCompletion s) := by
  unfold testCompletion
  split
  · split
    · exact (enterStage_keeps _ _ s).trans (setLatch_keeps _ _ _ _ _)
    · exact .refl s
  · exact .refl s

theorem layPosition_keeps (k : Dispenser) (s : State) : KeepsRecipes s (layPosition k s) := by
  unfold layPosition
  split
  next b w _ =>
    split
    next =>
      have htested := (s.modifyWrap_keeps (fun x => x.lay k (bandWidth s.rs.constants b.recipe w.circ))).trans
        ((chargeFilm_keeps k b _).trans (testCompletion_keeps _))
      unfold countedLay
      dsimp only
      split
      · exact htested.still rfl rfl rfl
      · exact htested
    next => exact .refl s
  next => exact .refl s

theorem stepRevolution_keeps (s : State) : KeepsRecipes s (stepRevolution s) := by
  refine (s.modifyWrap_keeps (fun w => { w with revolutions := stepSaturating w.revolutions 255 })).trans ?_
  unfold stepRevolution
  generalize s.modifyWrap (fun w => { w with revolutions := stepSaturating w.revolutions 255 }) = turned
  unfold capWrap
  split
  · split
    · exact (turned.flagRecord_keeps _ _).trans ((enterStage_keeps _ _ _).trans (setLatch_keeps _ _ _ _ _))
    · exact .refl turned
  · exact .refl turned

theorem stepSilence_keeps (k : Dispenser) (q : Nat) (s : State) : KeepsRecipes s (stepSilence k q s) := by
  unfold stepSilence
  dsimp only
  split
  · exact ((State.modifyWrap_keeps _ _).trans (setLatch_keeps _ _ _ _ _)).after rfl rfl rfl
  · exact .of_eq rfl rfl rfl

theorem stepSilences_keeps (s : State) : KeepsRecipes s (stepSilences s) := by
  unfold stepSilences
  split
  · exact (stepSilence_keeps _ _ s).trans (stepSilence_keeps _ _ _)
  · exact .refl s

theorem arriveCoverage_keeps (b : Bale) (s : State) : KeepsRecipes s (arriveCoverage b s) := by
  have hflagged : KeepsRecipes s
      (if b.moistureMean = none then s.flagRecord .table (fun f => { f with moistureUnknown := true }) else s) := by
    split
    · exact s.flagRecord_keeps _ _
    · exact .refl s
  unfold arriveCoverage
  dsimp only
  split
  · exact hflagged.trans ((enterStage_keeps _ _ _).trans (setLatch_keeps _ _ _ _ _))
  · exact hflagged.trans ((State.modifyRecord_keeps _ _ (by intro _; rfl)).trans (enterStage_keeps _ _ _))

/-! ### The pulses (R48) -/

/-- The table angle is the one item of MI the ranges speak of. -/
theorem RecipeInv.withAngle {s : State} (h : RecipeInv s) {n : Nat} (hn : n < s.rs.constants.tablePulses) :
    RecipeInv (s.withAngle n) := by
  obtain ⟨hlen, hslots, hsnap, hconst, hchan, -⟩ := h
  exact ⟨hlen, hslots, hsnap, hconst, hchan, hn⟩

theorem RecipeInv.tablePulses_pos {s : State} (h : RecipeInv s) : 0 < s.rs.constants.tablePulses := by
  obtain ⟨-, -, -, -, -, hangle⟩ := h
  omega

theorem RecipeInv.tablePulse {s : State} (h : RecipeInv s) : RecipeInv (tablePulse s) := by
  have hpos := h.tablePulses_pos
  have hangle := h.withAngle (n := angleAfter s.rs.constants.tablePulses s.mi.angle) (by
    unfold angleAfter
    split <;> omega)
  refine hangle.keeps ?_
  unfold Machine.tablePulse
  dsimp only
  split
  · exact (stepSilences_keeps _).trans (layPosition_keeps _ _)
  · exact stepSilences_keeps _

theorem RecipeInv.tableIndex {s : State} (h : RecipeInv s) : RecipeInv (tableIndex s) := by
  refine (h.withAngle h.tablePulses_pos).keeps ?_
  unfold Machine.tableIndex
  dsimp only
  split
  · exact (layPosition_keeps _ _).trans (stepRevolution_keeps _)
  · exact layPosition_keeps _ _

theorem baleRoll_keeps (s : State) : KeepsRecipes s (baleRoll s) := by
  unfold baleRoll
  split
  · exact s.modifyWrap_keeps _
  · exact .refl s

theorem meterNet_keeps (s : State) : KeepsRecipes s (meterNet s) := by
  unfold meterNet
  split
  next b _ =>
    split
    next n _ =>
      have hmetered := fun n' : NetFields => (s.modifyRecord_keeps .chamber (f := fun x => { x with net := some n' })
        (fun _ => rfl)).still (u := { s.modifyRecord .chamber (fun x => { x with net := some n' }) with
          cu := { s.cu with netCatchTimer := .stopped } }) rfl rfl rfl
      dsimp only
      split
      · exact (hmetered _).trans ((State.modifyRecord_keeps _ _ (by intro _; rfl)).trans
          ((enterStage_keeps _ _ _).trans (setLatch_keeps _ _ _ _ _)))
      · exact hmetered _
    next => exact .refl s
  next => exact .refl s

/-! ### Level inputs -/

theorem stopRising_keeps (s : State) : KeepsRecipes s (stopRising s) :=
  ⟨rfl, rfl, by simp [State.snapshots, stopRising, flagStopSeen, Function.comp_def]⟩

theorem stopFalling_keeps (s : State) : KeepsRecipes s (stopFalling s) := by
  refine KeepsRecipes.trans ?_ (evalGrant_keeps _)
  exact .of_eq (by simp) (by simp) (by simp)

theorem tableLoadedRising_keeps (s : State) : KeepsRecipes s (tableLoadedRising s) := by
  unfold tableLoadedRising
  split
  · split
    · exact (arriveCoverage_keeps _ (arriveHandover _ s)).after rfl rfl rfl
    · exact setLatch_keeps _ _ _ _ s
  · exact setLatch_keeps _ _ _ _ s

theorem tableLoadedFalling_keeps (s : State) : KeepsRecipes s (tableLoadedFalling s) := by
  unfold tableLoadedFalling
  split
  · split
    · exact closeRecord_keeps _ _ s
    · exact (s.flagRecord_keeps _ _).trans (closeRecord_keeps _ _ _)
    · exact closeRecord_keeps _ _ s
    · exact .refl s
  · exact .refl s

theorem levelArrival_keeps (i : LevelInput) (rising : Bool) (s : State) :
    KeepsRecipes s (levelArrival i rising s) := by
  cases i with
  | tailgate => exact .refl s
  | stop =>
    cases rising
    · exact stopFalling_keeps s
    · exact stopRising_keeps s
  | tableLoaded =>
    cases rising
    · exact tableLoadedFalling_keeps s
    · exact tableLoadedRising_keeps s

theorem State.modifyLevel_keeps (s : State) (i : LevelInput) (f : LevelLine → LevelLine) :
    KeepsRecipes s (s.modifyLevel i f) := .of_eq (by simp) (by simp) (by simp)

theorem stabilityExpiry_keeps (i : LevelInput) (s : State) : KeepsRecipes s (stabilityExpiry i s) := by
  unfold stabilityExpiry
  dsimp only
  split
  · exact .refl s
  split
  · exact s.modifyLevel_keeps i _
  · exact (s.modifyLevel_keeps i _).trans (levelArrival_keeps _ _ _)

/-! ### Channels and timers -/

theorem Bale.withPressure_recipe (b : Bale) (value : Nat) : (b.withPressure value).recipe = b.recipe := by
  unfold Bale.withPressure
  split <;> rfl

theorem Bale.withMoisture_recipe (b : Bale) (value : Nat) : (b.withMoisture value).recipe = b.recipe := by
  unfold Bale.withMoisture
  split <;> rfl

theorem handOff_keeps (ch : Channel) (value : Nat) (s : State) : KeepsRecipes s (handOff ch value s) := by
  cases ch with
  | p =>
    have hpeaked := s.modifyRecord_keeps .chamber (fun b => b.withPressure_recipe value)
    refine KeepsRecipes.still ?_ (syncDv_rs _) (congrArg _ (syncDv_mi _)) (syncDv_bt _)
    dsimp only
    split
    · exact hpeaked.trans (KeepsRecipes.after (State.flagRecord_keeps _ _ _) rfl rfl rfl)
    · exact hpeaked.still rfl rfl rfl
  | d => exact .of_eq (by simp [handOff, useDiameter]) (by simp [handOff, useDiameter]) (by simp [handOff, useDiameter])
  | m => exact s.modifyRecord_keeps .chamber (fun b => b.withMoisture_recipe value)

theorem conversionCompletion_keeps (ch : Channel) (raw : Int) (s : State) :
    KeepsRecipes s (conversionCompletion ch raw s) := by
  unfold conversionCompletion
  split
  · exact .refl s
  · exact KeepsRecipes.after (KeepsRecipes.still (handOff_keeps ch _ _) rfl rfl rfl) rfl rfl rfl

theorem zeroDueExpiry_keeps (ch : Channel) (s : State) : KeepsRecipes s (zeroDueExpiry ch s) := by
  unfold zeroDueExpiry
  (repeat' split) <;> exact .of_eq rfl rfl rfl

theorem autoZeroCompletion_keeps (ch : Channel) (s : State) : KeepsRecipes s (autoZeroCompletion ch s) := by
  unfold autoZeroCompletion
  split <;> exact .of_eq rfl rfl rfl

theorem netCatchExpiry_keeps (s : State) : KeepsRecipes s (netCatchExpiry s) := by
  unfold netCatchExpiry
  split
  · split
    · exact (returnToForming_keeps s).trans (setLatch_keeps _ _ _ _ _)
    · exact .refl s
  · exact .refl s

theorem transferExpiry_keeps (s : State) : KeepsRecipes s (transferExpiry s) := by
  unfold transferExpiry
  split
  · split
    · exact KeepsRecipes.after ((State.flagRecord_keeps _ _ _).trans
        ((setLatch_keeps _ _ _ _ _).trans (setLatch_keeps _ _ _ _ _))) rfl rfl rfl
    · exact .refl s
  · exact .refl s

end Sys2Proof.Machine
end

section
/-! Proofs. The requests: which commands keep the recipes, what OPEN BALE, LOAD RECIPE and SET MACHINE make of them
(R55, R60, R63), and the statement that every step keeps them in range. -/

namespace Sys2Proof.Machine

/-! ### Commands that keep the recipes -/

/-- The commands that take a snapshot, load a slot or set a constant; no other command touches RS, a snapshot or the
table angle. -/
def Command.writesRecipes : Command → Bool
  | .openBale => true
  | .loadRecipe => true
  | .setMachine => true
  | _ => false

theorem State.setImage_keeps (s : State) (p : Port) (img : Option Image) : KeepsRecipes s (s.setImage p img) :=
  .of_eq (by simp) (by simp) (by simp)

theorem readBaleImage_keeps (p : Port) (found : Option Bale) (s : State) :
    KeepsRecipes s (readBaleImage p found s).1 := by
  cases found with
  | none => exact .refl s
  | some b => exact s.setImage_keeps p _

theorem acknowledge_keeps (p : Port) (src : Source) (i : Fin 4) (s : State) :
    KeepsRecipes s (acknowledge p src i s).1 := by
  unfold acknowledge
  dsimp only
  split <;> exact .of_eq rfl rfl rfl

theorem cmdNetStart_keeps (p : Port) (pl : List Byte) (s : State) : KeepsRecipes s (cmdNetStart p pl s).1 := by
  unfold cmdNetStart
  split
  · exact .refl s
  split
  · exact .refl s
  split
  · exact .refl s
  · have hstarted := s.modifyRecord_keeps .chamber
      (f := fun x => x.withNetStart s.startDiameter s.mf.d.stale) (fun _ => rfl)
    exact hstarted.trans (KeepsRecipes.after (enterStage_keeps _ _ _) rfl rfl rfl)

theorem cmdRequestEject_keeps (p : Port) (pl : List Byte) (s : State) :
    KeepsRecipes s (cmdRequestEject p pl s).1 := by
  unfold cmdRequestEject
  split
  · exact .refl s
  split
  · exact .refl s
  split
  · exact grantEject_keeps false s
  · exact (s.modifyRecord_keeps .chamber (f := fun b => { b with ejectRequested := true }) (fun _ => rfl)).still
      rfl rfl rfl

theorem cmdCancelEject_keeps (p : Port) (pl : List Byte) (s : State) :
    KeepsRecipes s (cmdCancelEject p pl s).1 := by
  unfold cmdCancelEject
  split
  · exact .refl s
  split
  · exact .refl s
  · exact (s.modifyRecord_keeps .chamber (f := fun b => { b with ejectRequested := false }) (fun _ => rfl)).still
      rfl rfl rfl

theorem cmdTip_keeps (p : Port) (pl : List Byte) (s : State) : KeepsRecipes s (cmdTip p pl s).1 := by
  unfold cmdTip
  dsimp only
  (repeat' split) <;> first
    | exact .refl s
    | exact enterStage_keeps _ _ s
    | exact (s.flagRecord_keeps _ _).trans (enterStage_keeps _ _ (flagForcedTip s))

theorem ownBlock_keeps (c : Command) (p : Port) (pl : List Byte) (s : State) (hc : c.writesRecipes = false) :
    KeepsRecipes s (ownBlock c p pl s).1 := by
  cases c with
  | openBale | loadRecipe | setMachine => cases hc
  | identify | readStatus | readStock => exact .refl s
  | takeNotice | setNoticePlan | holdTable => exact .of_eq rfl rfl rfl
  | portReset => cases p <;> exact .of_eq rfl rfl rfl
  | readNext =>
    simp only [ownBlock, cmdReadNext]
    (repeat' split) <;> first | exact .refl s | exact s.setImage_keeps p _
  | ackNotice =>
    simp only [ownBlock, cmdAckNotice]
    split
    · exact acknowledge_keeps _ _ _ s
    · exact .refl s
  | ackCurrent =>
    simp only [ownBlock, cmdAckCurrent]
    split
    · exact acknowledge_keeps _ _ _ s
    · exact .refl s
  | readLinkStats =>
    simp only [ownBlock, cmdReadLinkStats]
    (repeat' split) <;> exact .of_eq (by simp) (by simp) (by simp)
  | readBale =>
    simp only [ownBlock, cmdReadBale]
    (repeat' split) <;> first | exact .refl s | exact readBaleImage_keeps _ _ s
  | readChannel => simp only [ownBlock, cmdReadChannel]; split <;> exact .refl s
  | holdZero => simp only [ownBlock, cmdHoldZero]; split <;> exact .of_eq rfl rfl rfl
  | releaseZero => simp only [ownBlock, cmdReleaseZero]; split <;> exact .of_eq rfl rfl rfl
  | prezero => simp only [ownBlock, cmdPrezero]; (repeat' split) <;> exact .of_eq rfl rfl rfl
  | dumpPrechamber =>
    simp only [ownBlock, cmdDumpPrechamber]
    (repeat' split) <;> first | exact .refl s | exact enterStage_keeps _ _ s
  | netStart => exact cmdNetStart_keeps p pl s
  | netAbort =>
    simp only [ownBlock, cmdNetAbort]
    (repeat' split) <;> first | exact .refl s | exact returnToForming_keeps s
  | requestEject => exact cmdRequestEject_keeps p pl s
  | cancelEject => exact cmdCancelEject_keeps p pl s
  | discardBale =>
    simp only [ownBlock, cmdDiscardBale]
    (repeat' split) <;> first | exact .refl s | exact closeRecord_keeps _ _ s
  | tip => exact cmdTip_keeps p pl s
  | abandonWrap =>
    simp only [ownBlock, cmdAbandonWrap]
    split
    · exact .refl s
    · exact (s.flagRecord_keeps _ _).trans (enterStage_keeps _ _ _)
  | restoreDispenser => simp only [ownBlock, cmdRestoreDispenser]; (repeat' split) <;> exact .of_eq rfl rfl rfl
  | withdrawDispenser => simp only [ownBlock, cmdWithdrawDispenser]; split <;> exact .of_eq rfl rfl rfl
  | freeTable => exact KeepsRecipes.after (evalGrant_keeps _) rfl rfl rfl
  | readRecipe =>
    simp only [ownBlock, cmdReadRecipe]
    split
    · exact .refl s
    · exact s.setImage_keeps p _
  | readMachine => simp only [ownBlock, cmdReadMachine]; (repeat' split) <;> exact .refl s
  | newRoll => simp only [ownBlock, cmdNewRoll]; (repeat' split) <;> exact .of_eq rfl rfl rfl
  | fetchReport =>
    simp only [ownBlock, cmdFetchReport]
    split
    · exact .refl s
    · exact s.setImage_keeps p _
  | releaseReport => simp only [ownBlock, cmdReleaseReport]; (repeat' split) <;> exact .of_eq rfl rfl rfl
  | queueStatus => simp only [ownBlock, cmdQueueStatus]; split <;> exact .of_eq rfl rfl rfl

/-! ### Commands that write them -/

/-- A snapshot taken from a legal slot is legal (R63). -/
theorem RecipeInv.createRecord {s : State} (h : RecipeInv s) (slot : Nat) {r : Recipe} (hr : r.Legal) (st : Stage) :
    RecipeInv (createRecord slot r st s) := by
  have hbales : (Machine.createRecord slot r st s).bt.bales =
      s.bt.bales ++ [newRecord s.bt.seqCounter slot r st s.bt.runClock] := by
    simp [Machine.createRecord]
  obtain ⟨hlen, hslots, hsnap, hconst, hchan, hangle⟩ := h
  unfold RecipeInv
  rw [createRecord_rs, createRecord_mi, hbales]
  refine ⟨hlen, hslots, fun b hb => ?_, hconst, hchan, hangle⟩
  rcases List.mem_append.mp hb with hb | hb
  · exact hsnap b hb
  · rw [List.mem_singleton.mp hb]
    exact hr

theorem RecipeInv.cmdOpenBale {s : State} (h : RecipeInv s) (p : Port) (pl : List Byte) :
    RecipeInv (cmdOpenBale p pl s).1 := by
  obtain ⟨-, hslots, -⟩ := id h
  unfold Machine.cmdOpenBale
  dsimp only
  split
  · exact h
  split
  · exact h
  split
  · exact h
  next x hx =>
    split
    · exact h
    split
    · exact h
    · exact h.createRecord _ (hslots x (List.mem_of_getElem? hx)) _

theorem RecipeInv.cmdLoadRecipe {s : State} (h : RecipeInv s) (p : Port) (pl : List Byte) :
    RecipeInv (cmdLoadRecipe p pl s).1 := by
  obtain ⟨hlen, hslots, hsnap, hconst, hchan, hangle⟩ := id h
  have hold : (s.rs.slots.getD (nat1 pl 0) ⟨false, defaultRecipe⟩).recipe.Legal := by
    rw [List.getD_eq_getElem?_getD]
    cases hx : s.rs.slots[nat1 pl 0]? with
    | none => exact defaultRecipe_legal
    | some x => exact hslots x (List.mem_of_getElem? hx)
  unfold Machine.cmdLoadRecipe
  dsimp only
  split
  · exact h
  · refine ⟨by simpa using hlen, fun x hx => ?_, hsnap, hconst, hchan, hangle⟩
    rcases List.mem_or_eq_of_mem_set hx with hx | rfl
    · exact hslots x hx
    · exact loadSlot_legal hold _ _ _

theorem RecipeInv.setChannelGroup {s : State} (h : RecipeInv s) (ch : Channel) (group : Nat) (pl : List Byte) :
    RecipeInv (setChannelGroup ch group pl s).1 := by
  obtain ⟨hlen, hslots, hsnap, hconst, hchan, hangle⟩ := id h
  unfold Machine.setChannelGroup
  dsimp only
  split
  · exact h
  next hraw =>
    refine ⟨hlen, hslots, hsnap, hconst, fun c => ?_, hangle⟩
    simp only [PerChannel.get_set]
    split
    next hc =>
      subst hc
      exact alterChannel_legal (hchan c) _ _ hraw
    next => exact hchan c

/-- A changed `table_pulses` starts the angle from 0, so it stays below it (R48, R61). -/
theorem RecipeInv.applyConstants {s : State} (h : RecipeInv s) {k : Constants} (hk : k.Legal) :
    RecipeInv (applyConstants k s) := by
  obtain ⟨hlen, hslots, hsnap, -, hchan, hangle⟩ := h
  have hpulses : 0 < k.tablePulses := by
    obtain ⟨-, -, -, -, hpulses, -⟩ := hk
    omega
  unfold Machine.applyConstants
  dsimp only
  split
  next hsame => exact ⟨hlen, hslots, hsnap, hk, hchan, lt_of_lt_of_eq hangle hsame.symm⟩
  next => exact ⟨hlen, hslots, hsnap, hk, hchan, hpulses⟩

theorem RecipeInv.cmdSetMachine {s : State} (h : RecipeInv s) (p : Port) (pl : List Byte) :
    RecipeInv (cmdSetMachine p pl s).1 := by
  obtain ⟨-, -, -, hconst, -⟩ := id h
  unfold Machine.cmdSetMachine
  dsimp only
  (repeat' split) <;> first
    | exact h
    | exact h.setChannelGroup _ _ pl
    | exact h.applyConstants ((alterConstants_alters _ _ _).inRange hconst.inRange).hystStep

/-! ### Taking a request -/

theorem RecipeInv.ownBlock {s : State} (h : RecipeInv s) (c : Command) (p : Port) (pl : List Byte) :
    RecipeInv (ownBlock c p pl s).1 := by
  cases hc : c.writesRecipes with
  | false => exact h.keeps (ownBlock_keeps c p pl s hc)
  | true =>
    cases c with
    | openBale => exact h.cmdOpenBale p pl
    | loadRecipe => exact h.cmdLoadRecipe p pl
    | setMachine => exact h.cmdSetMachine p pl
    | _ => cases hc

theorem beforeTake_keeps (p : Port) (code : Byte) (s : State) : KeepsRecipes s (beforeTake p code s) :=
  .of_eq (by simp) (by simp) (by simp)

theorem RecipeInv.takeRequest {s : State} (h : RecipeInv s) (p : Port) (code : Byte) (pl : List Byte) :
    RecipeInv (takeRequest p code pl s) := by
  have hbefore := h.keeps (beforeTake_keeps p code s)
  have hcarried : RecipeInv (carryOutCode p code pl (beforeTake p code s)).1 := by
    unfold carryOutCode carryOut
    (repeat' split) <;> first | exact hbefore | exact hbefore.ownBlock _ p pl
  unfold Machine.takeRequest
  split
  · exact h
  · exact hcarried.keeps (.of_eq (deliver_rs _ _ _) (congrArg _ (deliver_mi _ _ _)) (deliver_bt _ _ _))

/-! ### The wire -/

theorem State.modifyLine_keeps (s : State) (l : LinePort) (f : LineLink → LineLink) :
    KeepsRecipes s (s.modifyLine l f) := .of_eq (by simp) (by simp) (by simp)

theorem countLineError_keeps (l : LinePort) (e : LineError) (s : State) :
    KeepsRecipes s (countLineError l e s) := .of_eq (by simp) (by simp) (by simp)

theorem setReceiver_keeps (l : LinePort) (rx : Receiver) (s : State) : KeepsRecipes s (setReceiver l rx s) :=
  s.modifyLine_keeps l _

theorem abandonFrame_keeps (l : LinePort) (s : State) : KeepsRecipes s (abandonFrame l s) := by
  unfold abandonFrame
  split
  · exact countLineError_keeps l _ s
  · exact .refl s

theorem RecipeInv.handleGood {s : State} (h : RecipeInv s) (l : LinePort) (r : Request) :
    RecipeInv (handleGood l r s) := by
  unfold Machine.handleGood
  split
  · exact h.takeRequest _ _ _
  split
  · exact h.keeps (s.modifyLine_keeps l _)
  · exact h.keeps ((countLineError_keeps l _ s).trans (State.modifyLine_keeps _ l _))

theorem RecipeInv.afterAppend {s : State} (h : RecipeInv s) (l : LinePort) (chars : List Byte) (damaged : Bool) :
    RecipeInv (afterAppend l chars damaged s) := by
  have hdozing := h.keeps (setReceiver_keeps l .dozing s)
  unfold Machine.afterAppend completeFrame
  split
  · exact h.keeps ((countLineError_keeps l _ s).trans (setReceiver_keeps l _ _))
  split
  · split
    · exact hdozing.keeps (countLineError_keeps l _ _)
    split
    · exact hdozing.keeps (countLineError_keeps l _ _)
    · exact hdozing.handleGood l _
  · exact h.keeps (setReceiver_keeps l _ s)

theorem addressCharacter_keeps (l : LinePort) (data : Byte) (stopError : Bool) (s : State) :
    KeepsRecipes s (addressCharacter l data stopError s) := by
  unfold addressCharacter
  split
  · exact .refl s
  split <;> exact (abandonFrame_keeps l s).trans (setReceiver_keeps l _ _)

theorem RecipeInv.dataCharacter {s : State} (h : RecipeInv s) (l : LinePort) (data : Byte) (stopError : Bool) :
    RecipeInv (dataCharacter l data stopError s) := by
  unfold Machine.dataCharacter
  split
  · exact h
  split
  · exact h
  · exact h.afterAppend _ _ _

theorem interCharacterTimeout_keeps (l : LinePort) (s : State) : KeepsRecipes s (interCharacterTimeout l s) := by
  unfold interCharacterTimeout
  split
  · exact .refl s
  · exact (abandonFrame_keeps l s).trans (setReceiver_keeps l _ _)

theorem RecipeInv.transmissionCompletion {s : State} (h : RecipeInv s) (l : LinePort) :
    RecipeInv (transmissionCompletion l s) := by
  unfold Machine.transmissionCompletion
  split
  · exact h
  split
  · exact h
  · exact h.keeps (s.modifyLine_keeps l _)
  · exact (h.keeps (s.modifyLine_keeps l _)).takeRequest _ _ _

theorem RecipeInv.writeTransaction {s : State} (h : RecipeInv s) (write : WriteTransfer) :
    RecipeInv (writeTransaction write s) := by
  have hwires := fun acks sda => h.keeps (t := s.onWires acks sda) (.of_eq rfl rfl rfl)
  rcases writeTransaction_cases write s with ⟨-, hw⟩ | ⟨-, hw⟩ <;> rw [hw]
  · exact hwires [] []
  · have hreceived := hwires (writeAcks write.bytes.length) []
    rcases decideWrite_cases write.bytes (s.onWires (writeAcks write.bytes.length) []) with
      ⟨-, hd⟩ | ⟨-, -, hd⟩ | ⟨-, -, -, hd⟩ | ⟨-, -, -, hd⟩ <;> rw [hd]
    · exact hreceived
    · exact hreceived.keeps (.of_eq rfl rfl rfl)
    · exact hreceived.keeps (.of_eq rfl rfl rfl)
    · exact hreceived.takeRequest _ _ _

theorem readTransaction_keeps (read : ReadTransfer) (s : State) : KeepsRecipes s (readTransaction read s) := by
  rcases readTransaction_cases read s with ⟨-, hr⟩ | ⟨-, hr⟩ <;> rw [hr] <;> exact .of_eq rfl rfl rfl

/-! ### Every row -/

/-- Power-on puts every recipe and constant at its default (R53, R58). -/
theorem powerOn_recipes (straps : Straps) (s : State) : RecipeInv (powerOn straps s) :=
  reset_recipes.keeps (.of_eq rfl rfl rfl)

/-- A pin reset keeps RS and the table angle, and closes every record (R26). -/
theorem assertReset_keeps (s : State) : KeepsRecipes s (assertReset s) := by
  obtain ⟨hbt, -, hframe⟩ := closeAll_reset s
  refine ⟨hframe .rs (by simp), congrArg _ (hframe .mi (by simp)), ?_⟩
  show (closeAll s).bt.bales.map Bale.recipe ⊆ _
  rw [hbt]
  exact List.nil_subset _

theorem releaseReset_keeps (straps : Straps) (s : State) : KeepsRecipes s (releaseReset straps s) :=
  .of_eq rfl rfl rfl

theorem filmPulse_keeps (k : Dispenser) (s : State) : KeepsRecipes s (filmPulse k s) := .of_eq rfl rfl rfl

/-- A row that leaves the state as it is under a condition keeps what it keeps otherwise. -/
theorem RecipeInv.ite {s t : State} {c : Prop} [Decidable c] (hs : RecipeInv s) (ht : RecipeInv t) :
    RecipeInv (if c then s else t) := by
  split
  · exact hs
  · exact ht

theorem RecipeInv.refresh {s : State} (h : RecipeInv s) : RecipeInv (refreshAttention s) :=
  h.keeps (.of_eq rfl rfl rfl)

theorem exec_recipes (i : Instr) {s t : State} (h : RecipeInv s) (he : exec i s = .next t) : RecipeInv t := by
  cases hr : requestRow i with
  | some row =>
    obtain ⟨p, code, pl⟩ := row
    rw [exec_requestRow s hr] at he
    cases he
    exact (h.takeRequest p code pl).refresh
  | none =>
    cases i with
    | powerOnReset straps => cases he; exact (powerOn_recipes straps s).refresh
    | pinResetAssertion => cases he; exact (h.keeps (assertReset_keeps s)).refresh
    | pinResetRelease straps => cases he; exact (RecipeInv.ite (h.keeps (releaseReset_keeps straps s)) h).refresh
    | runClockTick => cases he; exact h
    | pdmOutputSlot => cases he; exact h.keeps (.of_eq rfl rfl rfl)
    | levelPinChange input asserted => cases he; exact h.keeps (s.modifyLevel_keeps input _)
    | stabilityTimerExpiry input => cases he; exact (h.keeps (stabilityExpiry_keeps input s)).refresh
    | tablePulse => cases he; exact (h.ite h.tablePulse).refresh
    | tableIndex => cases he; exact (h.ite h.tableIndex).refresh
    | baleRoll => cases he; exact (h.ite (h.keeps (baleRoll_keeps s))).refresh
    | netRoll => cases he; exact (h.ite (h.keeps ((meterNet_keeps s).still (u := netRoll s) rfl rfl rfl))).refresh
    | filmPulse k => cases he; exact (h.ite (h.keeps (filmPulse_keeps k s))).refresh
    | conversionCompletion ch raw => cases he; exact (h.keeps (conversionCompletion_keeps ch raw s)).refresh
    | zeroDueExpiry ch => cases he; exact (h.keeps (zeroDueExpiry_keeps ch s)).refresh
    | autoZeroCompletion ch => cases he; exact (h.keeps (autoZeroCompletion_keeps ch s)).refresh
    | netCatchExpiry => cases he; exact (h.keeps (netCatchExpiry_keeps s)).refresh
    | transferTimerExpiry => cases he; exact (h.keeps (transferExpiry_keeps s)).refresh
    | addressCharacter l data stopError => cases he; exact (h.keeps (addressCharacter_keeps l data stopError s)).refresh
    | dataCharacter l data stopError => cases he; exact (h.dataCharacter l data stopError).refresh
    | interCharacterTimeout l => cases he; exact (h.keeps (interCharacterTimeout_keeps l s)).refresh
    | responseTransmissionCompletion l => cases he; exact (h.transmissionCompletion l).refresh
    | writeTransaction write => cases he; exact (h.writeTransaction write).refresh
    | readTransaction read => cases he; exact (h.keeps (readTransaction_keeps read s)).refresh
    | _ => cases hr

/-- Settles O59: three commands, power-on and the pulses of the table write what the ranges speak of, each within them;
every other row keeps it. -/
theorem recipesAndConstantsStayLegal : Obligations.RecipesAndConstantsStayLegal := by
  intro s t hs hstep
  unfold step at hstep
  split at hstep
  · cases hstep; exact hs
  next c rest _ => exact exec_recipes c (s := { s with pending := rest }) hs hstep

end Sys2Proof.Machine
end

section
/-! Proofs. LOAD RECIPE (R54 to R56) and SET MACHINE (R59 to R61): what each stores, its clamp mask, and its frame. -/

namespace Sys2Proof.Machine

/-! ### RS and what it is stored beside -/

theorem OnlyChanges.of_rs (s : State) (x : RecipeStore) : OnlyChanges [.rs] s { s with rs := x } := by
  intro k hk
  cases k with
  | arbiter p => exact ⟨rfl, rfl, rfl⟩
  | link p => cases p <;> rfl
  | _ => first | rfl | simp at hk

/-! ### LOAD RECIPE -/

theorem recipeClampMask_lt (altered w : Recipe) (alter : Nat) : recipeClampMask altered w alter < 65536 := by
  unfold recipeClampMask
  exact (marks_lt _).trans_eq (by simp)

/-- Mark 0 is no field's, so it is never set (log entry 12). -/
theorem recipeClampMask_zero (altered w : Recipe) (alter : Nat) :
    (recipeClampMask altered w alter).testBit 0 = false := by
  rw [recipeClampMask, marks_testBit]
  rfl

theorem loadRecipe_lengthFits {pl : List Byte} (hlen : pl.length = 28) :
    Command.loadRecipe.lengthFits pl = true := by
  simp [Command.lengthFits, hlen]

theorem cmdLoadRecipe_slot {pl : List Byte} {s : State} {x : RecipeSlot} (p : Port) (hslot : nat1 pl 0 ≤ 7)
    (hx : s.rs.slots[nat1 pl 0]? = some x) : cmdLoadRecipe p pl s =
      ({ s with rs := { s.rs with
          slots := s.rs.slots.set (nat1 pl 0) (loadSlot x (readRecipeBlock pl 4) (nat2 pl 1) (nat1 pl 3)) } },
        answer (byte1 (nat1 pl 0) ++ flag1 (loadSlot x (readRecipeBlock pl 4) (nat2 pl 1) (nat1 pl 3)).valid ++
          byte2 (recipeClampMask (alterRecipe (if x.valid then x.recipe else defaultRecipe) (readRecipeBlock pl 4)
            (nat2 pl 1)) (readRecipeBlock pl 4) (nat2 pl 1)))) := by
  have hget : s.rs.slots.getD (nat1 pl 0) ⟨false, defaultRecipe⟩ = x := by
    rw [List.getD_eq_getElem?_getD, hx]
    rfl
  unfold cmdLoadRecipe
  dsimp only
  rw [if_neg (by omega), hget]

/-- Settles O49: the slot's contents and the mask as the block computes them are those of the rules, field by field. -/
theorem loadRecipe : Obligations.LoadRecipe := by
  intro pl s x hn hlen
  refine ⟨fun hslot => ?_, fun hslot hx => ?_⟩
  · refine refused_of (c := .loadRecipe) rfl hn rfl (loadRecipe_lengthFits hlen) ?_
    simp [ownBlock, cmdLoadRecipe, hslot]
  · let w := readRecipeBlock pl 4
    let alter := nat2 pl 1
    let a := alterRecipe (if x.valid then x.recipe else defaultRecipe) w alter
    have hcmd := cmdLoadRecipe_slot (s := beforeTake .c Command.loadRecipe.byte s) .c hslot (by simpa using hx)
    refine runs_of (c := .loadRecipe) rfl hn rfl (loadRecipe_lengthFits hlen) hcmd
      ⟨a, (loadSlot x w alter (nat1 pl 3)).valid, recipeClampMask a w alter, alterRecipe_alters _ w alter, ?_, ?_, ?_,
        ⟨recipeClampMask_lt a w alter, recipeClampMask_zero a w alter⟩,
        fun k h1 h15 => recipeClampMask_iff _ w alter k h1 h15, ?_⟩
    · simp only [loadSlot, hasMark_eq, alter]
    · simp [loadSlot, bandStep_eq, a, w, alter]
    · simp [Answered, answer, Command.byte, a, w, alter]
    · exact request_frame (changed := [.rs]) (OnlyChanges.of_rs _ _)

/-! ### SET MACHINE: the checks (R59) -/

theorem setMachineLength_eq {group : Nat} (h : group ≤ 3) : setMachineLength group = if group = 3 then 31 else 11 := by
  unfold setMachineLength
  split <;> split <;> omega

/-- A refusal by one of SET MACHINE's checks. -/
theorem setMachine_refused {pl : List Byte} {s : State} {st : Status} (hn : s.nrstAsserted = false)
    (hc : cmdSetMachine .c pl (beforeTake .c Command.setMachine.byte s) =
      (beforeTake .c Command.setMachine.byte s, refuse st)) :
    Runs (.setMachine .c pl) s (Refused .c .setMachine st s) :=
  refused_of (c := .setMachine) rfl hn rfl rfl hc

/-- A payload that passes the checks reaches its channel's group. -/
theorem cmdSetMachine_channel {pl : List Byte} {s : State} (p : Port) {ch : Channel} (hg : nat1 pl 0 = channelNumber ch)
    (hl : pl.length = 11) (hb : s.bt.bales = []) : cmdSetMachine p pl s = setChannelGroup ch (nat1 pl 0) pl s := by
  have hle := channelNumber_le ch
  have hgroup : ¬ 3 < nat1 pl 0 := by omega
  have hlength : setMachineLength (nat1 pl 0) = 11 := if_pos (by omega)
  simp [cmdSetMachine, hgroup, hlength, hl, hb, groupChannel, channelOfNumber_eq hg]

/-- A payload that passes the checks reaches group 3. -/
theorem cmdSetMachine_constants {pl : List Byte} {s : State} (p : Port) (hg : nat1 pl 0 = 3) (hl : pl.length = 31)
    (hb : s.bt.bales = []) : cmdSetMachine p pl s = setConstantsGroup pl s := by
  have hlength : setMachineLength 3 = 31 := rfl
  simp [cmdSetMachine, hg, hlength, hl, hb, groupChannel, channelOfNumber_none]

/-! ### SET MACHINE on a channel's group -/

/-- The constants of a channel as R60 words them. -/
theorem alterChannel_eq (top : Nat) (old : ChannelConstants) (pl : List Byte) :
    alterChannel top old (nat1 pl 1) (nat1 pl 2) (readPairBlock pl 3) =
      { period := if (nat1 pl 1).testBit 0 then roundedUp [10, 20, 50, 100] 200 (nat1 pl 2) else old.period
        pair := if (nat1 pl 1).testBit 1 then
            ⟨rawOf pl 3, min (nat2 pl 5) top, rawOf pl 7, min (nat2 pl 9) top⟩ else old.pair } := by
  rw [alterChannel, hasMark_eq, hasMark_eq, legalPeriod_eq, clampPair_eq]

/-- The clamp mask of a channel's group (R60). -/
def channelClampMask (top : Nat) (pl : List Byte) : Nat :=
  marks [hasMark (nat1 pl 1) 0 && decide (legalPeriod (nat1 pl 2) ≠ nat1 pl 2),
    hasMark (nat1 pl 1) 1 && decide (clampPair top (readPairBlock pl 3) ≠ readPairBlock pl 3)]

theorem setChannelGroup_refused {ch : Channel} {pl : List Byte} (group : Nat) (s : State)
    (halter : (nat1 pl 1).testBit 1 = true) (hraw : rawOf pl 3 = rawOf pl 7) :
    setChannelGroup ch group pl s = (s, refuse .badValue) := by
  unfold setChannelGroup
  dsimp only
  rw [if_pos]
  rw [hasMark_eq, clampPair_eq]
  exact ⟨halter, hraw⟩

theorem setChannelGroup_stores {ch : Channel} {pl : List Byte} (group : Nat) (s : State)
    (h : ¬ ((nat1 pl 1).testBit 1 = true ∧ rawOf pl 3 = rawOf pl 7)) : setChannelGroup ch group pl s =
      ({ s with rs := { s.rs with
          chan := s.rs.chan.set ch
            (alterChannel (channelTop ch) (s.rs.chan.get ch) (nat1 pl 1) (nat1 pl 2) (readPairBlock pl 3)) } },
        answer (byte1 group ++ byte2 (channelClampMask (channelTop ch) pl))) := by
  unfold setChannelGroup
  dsimp only
  rw [if_neg]
  · rfl
  · rw [hasMark_eq, clampPair_eq]
    exact h

theorem channelClampMask_lt (top : Nat) (pl : List Byte) : channelClampMask top pl < 4 := marks_lt _

/-- The clamp mask marks the altered items that are stored otherwise than they were written. -/
theorem channelClampMask_iff (top : Nat) (old : ChannelConstants) (pl : List Byte) :
    ((channelClampMask top pl).testBit 0 = true ↔ (nat1 pl 1).testBit 0 = true ∧
      (alterChannel top old (nat1 pl 1) (nat1 pl 2) (readPairBlock pl 3)).period ≠ nat1 pl 2) ∧
    ((channelClampMask top pl).testBit 1 = true ↔ (nat1 pl 1).testBit 1 = true ∧
      (alterChannel top old (nat1 pl 1) (nat1 pl 2) (readPairBlock pl 3)).pair ≠ readPairBlock pl 3) := by
  simp only [channelClampMask, marks_testBit, alterChannel, hasMark_eq]
  constructor
  · cases (nat1 pl 1).testBit 0 <;> simp
  · cases (nat1 pl 1).testBit 1 <;> simp

/-! ### SET MACHINE on group 3 -/

theorem constantsClampMask_lt (altered w : Constants) (alter : Nat) : constantsClampMask altered w alter < 8192 := by
  unfold constantsClampMask
  exact (marks_lt _).trans_eq (by simp)

theorem applyConstants_rs (k : Constants) (s : State) : (applyConstants k s).rs = { s.rs with constants := k } := by
  unfold applyConstants
  dsimp only
  split
  · rfl
  · exact clearSilence_rs _

theorem applyConstants_same {k : Constants} {s : State} (h : k.tablePulses = s.rs.constants.tablePulses) :
    applyConstants k s = { s with rs := { s.rs with constants := k } } := if_pos h

/-- A changed `table_pulses` clears the angle and the silence counters (R61). -/
theorem applyConstants_changed {k : Constants} {s : State} (h : k.tablePulses ≠ s.rs.constants.tablePulses) :
    applyConstants k s =
      clearSilence { s with rs := { s.rs with constants := k }, mi := { s.mi with angle := 0 } } := if_neg h

theorem clearSilence_film (s : State) (k : Dispenser) :
    (clearSilence s).ds.film.get k = { s.ds.film.get k with silence := 0 } := by
  cases k <;> rfl

theorem applyConstants_frame (k : Constants) (s : State) : OnlyChanges [.rs, .mi, .ds] s (applyConstants k s) := by
  by_cases hsame : k.tablePulses = s.rs.constants.tablePulses
  · rw [applyConstants_same hsame]
    exact (OnlyChanges.of_rs s _).mono (by simp)
  · rw [applyConstants_changed hsame]
    intro b hb
    cases b with
    | arbiter p => exact ⟨rfl, rfl, rfl⟩
    | link p => cases p <;> rfl
    | _ => first | rfl | simp at hb

theorem applyConstants_frame_same {k : Constants} {s : State} (h : k.tablePulses = s.rs.constants.tablePulses) :
    OnlyChanges [.rs] s (applyConstants k s) := by
  rw [applyConstants_same h]
  exact OnlyChanges.of_rs s _

/-! ### The statement -/

/-- SET MACHINE on a channel's group, its checks passed (R59, R60). -/
theorem setMachine_channel {pl : List Byte} {s : State} (hn : s.nrstAsserted = false) {ch : Channel}
    (hg : nat1 pl 0 = channelNumber ch) (hl : pl.length = 11) (hb : s.bt.bales = [])
    (hraw : ¬ ((nat1 pl 1).testBit 1 = true ∧ rawOf pl 3 = rawOf pl 7)) :
    Runs (.setMachine .c pl) s (fun t =>
      t.rs = { s.rs with
        chan := s.rs.chan.set ch
          (alterChannel (channelTop ch) (s.rs.chan.get ch) (nat1 pl 1) (nat1 pl 2) (readPairBlock pl 3)) } ∧
      Answered .c .setMachine .ok (byte1 (nat1 pl 0) ++ byte2 (channelClampMask (channelTop ch) pl)) t ∧
      OnlyChanges (.rs :: takeBlocks .c s) s t) := by
  have hcmd := (cmdSetMachine_channel (s := beforeTake .c Command.setMachine.byte s) .c hg hl (by simpa using hb)).trans
    (setChannelGroup_stores (nat1 pl 0) _ hraw)
  exact runs_of (c := .setMachine) rfl hn rfl rfl hcmd
    ⟨by simp, by simp [Answered, answer, Command.byte], request_frame (changed := [.rs]) (OnlyChanges.of_rs _ _)⟩

/-- SET MACHINE on group 3, its checks passed (R60, R61). -/
theorem setMachine_constants {pl : List Byte} {s : State} (hn : s.nrstAsserted = false) (hg : nat1 pl 0 = 3)
    (hl : pl.length = 31) (hb : s.bt.bales = []) {a : Constants}
    (ha : a = alterConstants s.rs.constants (readConstantsBlock pl 3) (nat2 pl 1)) :
    Runs (.setMachine .c pl) s (fun t =>
      t.rs = { s.rs with constants := hystStep a } ∧
      Answered .c .setMachine .ok (byte1 3 ++ byte2 (constantsClampMask a (readConstantsBlock pl 3) (nat2 pl 1))) t ∧
      ((hystStep a).tablePulses = s.rs.constants.tablePulses → OnlyChanges (.rs :: takeBlocks .c s) s t) ∧
      ((hystStep a).tablePulses ≠ s.rs.constants.tablePulses →
        t.mi = { s.mi with angle := 0 } ∧
        (∀ k, t.ds.film.get k = { s.ds.film.get k with silence := 0 }) ∧
        t.ds.netStock = s.ds.netStock ∧ t.ds.netKnown = s.ds.netKnown ∧
        OnlyChanges (.rs :: .mi :: .ds :: takeBlocks .c s) s t)) := by
  let u := beforeTake .c Command.setMachine.byte s
  have hrs : u.rs = s.rs := beforeTake_rs _ _ _
  have hmi : u.mi = s.mi := beforeTake_mi _ _ _
  have hds : u.ds = s.ds := beforeTake_ds _ _ _
  have hcmd : cmdSetMachine .c pl u = (applyConstants (hystStep a) u,
      answer (byte1 3 ++ byte2 (constantsClampMask a (readConstantsBlock pl 3) (nat2 pl 1)))) := by
    rw [cmdSetMachine_constants .c hg hl (by simpa [u] using hb), ha, ← hrs]
    rfl
  refine runs_of (c := .setMachine) rfl hn rfl rfl hcmd
    ⟨by simp [applyConstants_rs, hrs], by simp [Answered, answer, Command.byte], fun hsame => ?_, fun hchanged => ?_⟩
  · exact request_frame (changed := [.rs]) (applyConstants_frame_same (by rw [hrs]; exact hsame))
  · have happly := applyConstants_changed (k := hystStep a) (s := u) (by rw [hrs]; exact hchanged)
    refine ⟨?_, fun k => ?_, ?_, ?_, request_frame (changed := [.rs, .mi, .ds]) (applyConstants_frame _ u)⟩
    · rw [after_mi, happly, clearSilence_mi, hmi]
    · rw [after_ds, happly, clearSilence_film, hds]
    · rw [after_ds, happly, ← hds]
      rfl
    · rw [after_ds, happly, ← hds]
      rfl

/-- Settles O50: the checks as the block makes them in turn, then each group's constants and mask item by item. -/
theorem setMachine : Obligations.SetMachine := by
  intro pl s hn
  refine ⟨fun hempty => setMachine_refused hn ?_, fun hne hg => setMachine_refused hn ?_,
    fun hne hg hl => setMachine_refused hn ?_, fun hl hg hb => setMachine_refused hn ?_,
    fun ch hg hl hb => ⟨fun halter hraw => setMachine_refused hn ?_, fun hraw => ?_⟩, fun hg hl hb => ?_⟩
  · simp [cmdSetMachine, hempty]
  · simp [cmdSetMachine, hne, hg]
  · simp [cmdSetMachine, hne, setMachineLength_eq hg, hl, Nat.not_lt.mpr hg]
  · have hne : pl ≠ [] := by
      rintro rfl
      split at hl <;> simp at hl
    simp [cmdSetMachine, hne, setMachineLength_eq hg, ← hl, hb, Nat.not_lt.mpr hg]
  · rw [cmdSetMachine_channel .c hg hl (by simpa using hb)]
    exact setChannelGroup_refused _ _ halter hraw
  · refine Runs.imp (setMachine_channel hn hg hl hb hraw) (fun t ⟨hrs, hanswer, hframe⟩ => ?_)
    have hch : t.rs.chan.get ch =
        alterChannel (channelTop ch) (s.rs.chan.get ch) (nat1 pl 1) (nat1 pl 2) (readPairBlock pl 3) := by simp [hrs]
    obtain ⟨hperiod, hpair⟩ := channelClampMask_iff (channelTop ch) (s.rs.chan.get ch) pl
    rw [← hch] at hperiod hpair
    exact ⟨hch.trans (alterChannel_eq _ _ _), fun c hc => by simp [hrs, hc], by simp [hrs], by simp [hrs],
      ⟨_, hanswer, channelClampMask_lt _ _, hperiod, hpair⟩, hframe⟩
  · refine Runs.imp (setMachine_constants hn hg hl hb rfl) (fun t ⟨hrs, hanswer, hsame, hchanged⟩ => ?_)
    have hconst : t.rs.constants = _ := congrArg RecipeStore.constants hrs
    rw [hconst]
    exact ⟨⟨_, _, alterConstants_alters _ _ _, hystStep_eq _, hanswer, constantsClampMask_lt _ _ _,
      fun k hk => constantsClampMask_iff _ _ (int2_range pl _) _ k hk⟩, by rw [hrs], by rw [hrs], hsame, hchanged⟩

end Sys2Proof.Machine
end

section
/-! Proofs. The rows on the links: whatever no link unit and no arbiter bears on, and the taking of a request keeps,
every character, transaction and request keeps (R184 to R192). -/

namespace Sys2Proof.Machine

/-! ### What the links' own operations touch -/

/-- The link units and the arbiters. -/
def linkBlocks : List Block := .link .a :: .link .b :: .link .c :: arbiters

theorem refreshAttention_frame (s : State) : OnlyChanges linkBlocks s (refreshAttention s) :=
  (OnlyChanges_refreshAttention _ _ _).mpr (.refl _ _)

theorem State.modifyLine_frame (s : State) (l : LinePort) (f : LineLink → LineLink) :
    OnlyChanges linkBlocks s (s.modifyLine l f) := by
  intro k hk
  cases k with
  | arbiter p => cases p <;> simp [linkBlocks, arbiters] at hk
  | link p => cases p <;> simp [linkBlocks] at hk
  | _ => simp [Block.same]

theorem State.modifyTarget_frame (s : State) (f : TargetLink → TargetLink) :
    OnlyChanges linkBlocks s (s.modifyTarget f) := by
  intro k hk
  cases k with
  | arbiter p => exact ⟨rfl, rfl, rfl⟩
  | link p => cases p <;> simp [linkBlocks] at hk
  | _ => rfl

theorem setLatch_links (p : Port) (src : Source) (i : Fin 4) (d : Nat) (s : State) :
    OnlyChanges linkBlocks s (setLatch p src i d s) :=
  (setLatch_frame p src i d s).mono (by cases p <;> simp [linkBlocks, arbiters])

theorem countLineError_frame (l : LinePort) (e : LineError) (s : State) :
    OnlyChanges linkBlocks s (countLineError l e s) :=
  (s.modifyLine_frame l _).trans (setLatch_links _ _ _ _ _)

theorem countTargetError_frame (e : TargetError) (s : State) : OnlyChanges linkBlocks s (countTargetError e s) :=
  (s.modifyTarget_frame _).trans (setLatch_links _ _ _ _ _)

theorem setReceiver_frame (l : LinePort) (rx : Receiver) (s : State) : OnlyChanges linkBlocks s (setReceiver l rx s) :=
  s.modifyLine_frame l _

theorem abandonFrame_frame (l : LinePort) (s : State) : OnlyChanges linkBlocks s (abandonFrame l s) := by
  unfold abandonFrame
  split
  · exact countLineError_frame l _ s
  · exact .refl _ _

theorem beforeTake_links (p : Port) (code : Byte) (s : State) : OnlyChanges linkBlocks s (beforeTake p code s) :=
  (beforeTake_frame p code s).mono (fun _ hk => by
    rcases takeBlocks_mem hk with rfl | rfl
    · cases p <;> simp [linkBlocks]
    · simp [linkBlocks, arbiters])

theorem deliver_links (p : Port) (r : Response) (s : State) : OnlyChanges linkBlocks s (deliver p r s) :=
  (deliver_frame p r s).mono (by cases p <;> simp [linkBlocks])

/-! ### What the rows on the links keep -/

/-- A property that reads no link unit and no arbiter, and that the taking of a request keeps. -/
structure KeptByRequests (P : State → Prop) : Prop where
  links : ∀ {s t : State}, OnlyChanges linkBlocks s t → P s → P t
  take : ∀ (p : Port) (code : Byte) (pl : List Byte) {s : State}, P s → P (takeRequest p code pl s)

namespace KeptByRequests

variable {P : State → Prop}

/-- The taking of a request keeps what every owning block keeps outside nRST (R192). -/
theorem of_ownBlock (hlinks : ∀ {s t : State}, OnlyChanges linkBlocks s t → P s → P t)
    (hown : ∀ (c : Command) (p : Port) (pl : List Byte) {s : State}, s.nrstAsserted = false → P s →
      P (ownBlock c p pl s).1) : KeptByRequests P := by
  refine ⟨hlinks, fun p code pl s h => ?_⟩
  unfold takeRequest
  split
  · exact h
  next hn =>
    have hbefore : P (beforeTake p code s) := hlinks (beforeTake_links p code s) h
    refine hlinks (deliver_links _ _ _) ?_
    unfold carryOutCode carryOut
    (repeat' split) <;> first
      | exact hbefore
      | exact hown _ p pl (by simpa using hn) hbefore

section
variable (hP : KeptByRequests P)
include hP

theorem handleGood (l : LinePort) (r : Request) {s : State} (h : P s) : P (handleGood l r s) := by
  unfold Machine.handleGood
  split
  · exact hP.take _ _ _ h
  split
  · exact hP.links (s.modifyLine_frame l _) h
  · exact hP.links ((countLineError_frame l _ s).trans (State.modifyLine_frame _ l _)) h

theorem afterAppend (l : LinePort) (chars : List Byte) (damaged : Bool) {s : State} (h : P s) :
    P (afterAppend l chars damaged s) := by
  have hdozing := hP.links (setReceiver_frame l .dozing s) h
  unfold Machine.afterAppend completeFrame
  split
  · exact hP.links ((countLineError_frame l _ s).trans (setReceiver_frame l _ _)) h
  split
  · split
    · exact hP.links (countLineError_frame l _ _) hdozing
    split
    · exact hP.links (countLineError_frame l _ _) hdozing
    · exact hP.handleGood l _ hdozing
  · exact hP.links (setReceiver_frame l _ s) h

theorem addressCharacter (l : LinePort) (data : Byte) (stopError : Bool) {s : State} (h : P s) :
    P (addressCharacter l data stopError s) := by
  unfold Machine.addressCharacter
  split
  · exact h
  split <;> exact hP.links ((abandonFrame_frame l s).trans (setReceiver_frame l _ _)) h

theorem dataCharacter (l : LinePort) (data : Byte) (stopError : Bool) {s : State} (h : P s) :
    P (dataCharacter l data stopError s) := by
  unfold Machine.dataCharacter
  split
  · exact h
  split
  · exact h
  · exact hP.afterAppend _ _ _ h

theorem interCharacterTimeout (l : LinePort) {s : State} (h : P s) : P (interCharacterTimeout l s) := by
  unfold Machine.interCharacterTimeout
  split
  · exact h
  · exact hP.links ((abandonFrame_frame l s).trans (setReceiver_frame l _ _)) h

theorem transmissionCompletion (l : LinePort) {s : State} (h : P s) : P (transmissionCompletion l s) := by
  unfold Machine.transmissionCompletion
  split
  · exact h
  split
  · exact h
  · exact hP.links (s.modifyLine_frame l _) h
  · exact hP.take _ _ _ (hP.links (s.modifyLine_frame l _) h)

theorem writeTransaction (write : WriteTransfer) {s : State} (h : P s) : P (writeTransaction write s) := by
  have hwires := fun acks sda => hP.links (t := s.onWires acks sda) (s.modifyTarget_frame _) h
  rcases writeTransaction_cases write s with ⟨-, hw⟩ | ⟨-, hw⟩ <;> rw [hw]
  · exact hwires [] []
  · have hreceived := hwires (writeAcks write.bytes.length) []
    rcases decideWrite_cases write.bytes (s.onWires (writeAcks write.bytes.length) []) with
      ⟨-, hd⟩ | ⟨-, -, hd⟩ | ⟨-, -, -, hd⟩ | ⟨-, -, -, hd⟩ <;> rw [hd]
    · exact hreceived
    · exact hP.links (countTargetError_frame _ _) hreceived
    · exact hP.links (countTargetError_frame _ _) hreceived
    · exact hP.take _ _ _ hreceived

theorem readTransaction (read : ReadTransfer) {s : State} (h : P s) : P (readTransaction read s) := by
  rcases readTransaction_cases read s with ⟨-, hr⟩ | ⟨-, hr⟩ <;> rw [hr]
  · exact hP.links (s.modifyTarget_frame _) h
  · exact hP.links ((s.modifyTarget_frame _).trans (State.modifyTarget_frame _ _)) h

end

end KeptByRequests

/-- The rows on the links: the requests, and the characters and transactions that bring them. -/
def onLinks (i : Instr) : Bool :=
  match i with
  | .addressCharacter _ _ _ | .dataCharacter _ _ _ | .interCharacterTimeout _ | .responseTransmissionCompletion _
  | .writeTransaction _ | .readTransaction _ => true
  | i => (requestRow i).isSome

/-- Every row on the links keeps what requests keep. -/
theorem KeptByRequests.exec {P : State → Prop} (hP : KeptByRequests P) {i : Instr} (hi : onLinks i = true)
    {s t : State} (h : P s) (he : exec i s = .next t) : P t := by
  have hrefresh : ∀ {u : State}, P u → P (refreshAttention u) := fun hu => hP.links (refreshAttention_frame _) hu
  cases hr : requestRow i with
  | some row =>
    obtain ⟨p, code, pl⟩ := row
    rw [exec_requestRow s hr] at he
    cases he
    exact hrefresh (hP.take p code pl h)
  | none =>
    cases i with
    | addressCharacter l data stopError => cases he; exact hrefresh (hP.addressCharacter l data stopError h)
    | dataCharacter l data stopError => cases he; exact hrefresh (hP.dataCharacter l data stopError h)
    | interCharacterTimeout l => cases he; exact hrefresh (hP.interCharacterTimeout l h)
    | responseTransmissionCompletion l => cases he; exact hrefresh (hP.transmissionCompletion l h)
    | writeTransaction write => cases he; exact hrefresh (hP.writeTransaction write h)
    | readTransaction read => cases he; exact hrefresh (hP.readTransaction read h)
    | _ => simp [onLinks, hr] at hi

end Sys2Proof.Machine
end

section
/-! Proofs. The density drive and BALE_FULL (R69, R73): what they depend on, the operations that leave it as it is, and
those that bring them into line again. -/

namespace Sys2Proof.Machine

/-! ### What the drive depends on -/

/-- What the drive and BALE_FULL depend on: of each record its stage and recipe, CU's outputs, the causes of R69 and
R73, the held D value, nRST. -/
structure DriveView where
  records : List (Stage × Recipe)
  computedCode : Nat
  dvCode : Nat
  lockout : Bool
  baleFull : Bool
  stop : Bool
  held : Nat
  reset : Bool

/-- What the drive depends on, as it stands in a state. -/
def State.driveView (s : State) : DriveView :=
  { records := s.bt.bales.map (fun b => (b.stage, b.recipe))
    computedCode := s.cu.computedCode
    dvCode := s.cu.dvCode
    lockout := s.cu.lockout
    baleFull := s.cu.baleFull
    stop := s.mi.stop.filtered
    held := s.mf.d.value
    reset := s.nrstAsserted }

/-- The chamber record among the records (R2). -/
def chamberOf (records : List (Stage × Recipe)) : Option (Stage × Recipe) :=
  records.find? (fun x => x.1.zone == .chamber)

/-- What BALE_FULL is to be, of the records and the held D value (R69). -/
def fullOf (records : List (Stage × Recipe)) (held : Nat) : Bool :=
  match chamberOf records with
  | some (st, r) => decide (st = .forming) && decide (r.targetDiameter ≤ held)
  | none => false

/-- `DriveInv`, said of what the drive depends on. -/
def DriveView.Safe (d : DriveView) : Prop :=
  d.dvCode = driveCode d.stop d.lockout (chamberOf d.records).isSome d.computedCode ∧
  d.baleFull = fullOf d.records d.held ∧ (d.reset = true → d.records = [])

theorem State.chamberOf_driveView (s : State) :
    chamberOf s.driveView.records = (s.recordIn .chamber).map (fun b => (b.stage, b.recipe)) := by
  rw [chamberOf, State.driveView, List.find?_map]
  rfl

theorem State.fullTarget_driveView (s : State) : s.fullTarget = fullOf s.driveView.records s.driveView.held := by
  rw [State.fullTarget_eq, fullOf, State.chamberOf_driveView]
  cases s.recordIn .chamber <;> rfl

theorem driveInv_iff (s : State) : DriveInv s ↔ s.driveView.Safe := by
  unfold DriveInv DriveView.Safe
  rw [State.dvTarget_eq, State.fullTarget_driveView, State.chamberOf_driveView, Option.isSome_map]
  simp only [State.driveView, List.map_eq_nil_iff]

/-- Where nothing the drive depends on changes, it stays safe. -/
theorem DriveInv.still {s t : State} (h : DriveInv s) (e : t.driveView = s.driveView) : DriveInv t := by
  rw [driveInv_iff] at h ⊢
  rwa [e]

/-- While a record is live nRST is not asserted (R26). -/
theorem DriveInv.live {s : State} {z : Zone} {b : Bale} (h : DriveInv s) (hb : s.recordIn z = some b) :
    s.nrstAsserted = false := by
  obtain ⟨-, -, hreset⟩ := h
  cases hn : s.nrstAsserted with
  | false => rfl
  | true =>
    have hmem := State.recordIn_mem hb
    rw [hreset hn] at hmem
    cases hmem

/-- With no record live the drive is safe exactly where the valve is not driven and BALE_FULL is off. -/
theorem driveInv_iff_of_empty {s : State} (hb : s.bt.bales = []) :
    DriveInv s ↔ s.cu.dvCode = 0 ∧ s.cu.baleFull = false := by
  have hchamber : s.recordIn .chamber = none := by simp [State.recordIn, hb]
  unfold DriveInv
  rw [State.dvTarget_eq, State.fullTarget_eq, hchamber]
  simp [driveCode, fullFor, hb]

/-! ### Operations that leave it as it is -/

theorem OnlyChanges.driveView {changed : List Block} {s t : State} (h : OnlyChanges changed s t)
    (hc : ∀ k ∈ [Block.nrst, .bt, .mf, .mi, .cu], k ∉ changed) : t.driveView = s.driveView := by
  have hn : t.nrstAsserted = s.nrstAsserted := h .nrst (hc _ (by simp))
  have hbt : t.bt = s.bt := h .bt (hc _ (by simp))
  have hmf : t.mf = s.mf := h .mf (hc _ (by simp))
  have hmi : t.mi = s.mi := h .mi (hc _ (by simp))
  have hcu : t.cu = s.cu := h .cu (hc _ (by simp))
  simp only [State.driveView, hn, hbt, hmf, hmi, hcu]

@[simp] theorem setLatchAll_driveView (src : Source) (i : Fin 4) (d : Nat) (s : State) :
    (setLatchAll src i d s).driveView = s.driveView := rfl

@[simp] theorem refreshAttention_driveView (s : State) : (refreshAttention s).driveView = s.driveView := rfl

@[simp] theorem State.modifyDispenser_driveView (s : State) (k : Dispenser) (f : DispenserRecord → DispenserRecord) :
    (s.modifyDispenser k f).driveView = s.driveView := rfl

@[simp] theorem State.setImage_driveView (s : State) (p : Port) (img : Option Image) :
    (s.setImage p img).driveView = s.driveView := by cases p <;> rfl

@[simp] theorem clearErrorLatch_driveView (p : Port) (s : State) :
    (clearErrorLatch p s).driveView = s.driveView := by cases p <;> rfl

theorem map_stage_recipe_modifyZone (z : Zone) {f : Bale → Bale}
    (hf : ∀ b, (f b).stage = b.stage ∧ (f b).recipe = b.recipe) (bales : List Bale) :
    (modifyZone z f bales).map (fun b => (b.stage, b.recipe)) = bales.map (fun b => (b.stage, b.recipe)) := by
  induction bales with
  | nil => rfl
  | cons b bs ih =>
    rw [modifyZone]
    split
    · simp [hf]
    · simp [ih]

/-- A record changed in neither its stage nor its recipe. -/
theorem State.modifyRecord_driveView (s : State) (z : Zone) {f : Bale → Bale}
    (hf : ∀ b, (f b).stage = b.stage ∧ (f b).recipe = b.recipe) :
    (s.modifyRecord z f).driveView = s.driveView := by
  simp [State.driveView, State.modifyRecord_bales, map_stage_recipe_modifyZone z hf]

@[simp] theorem State.flagRecord_driveView (s : State) (z : Zone) (f : RecordFlags → RecordFlags) :
    (s.flagRecord z f).driveView = s.driveView := s.modifyRecord_driveView z (fun _ => ⟨rfl, rfl⟩)

@[simp] theorem State.modifyWrap_driveView (s : State) (f : WrapSection → WrapSection) :
    (s.modifyWrap f).driveView = s.driveView := s.modifyRecord_driveView .table (fun _ => ⟨rfl, rfl⟩)

/-- A channel record changed in anything but its value. -/
theorem State.modifyChannel_driveView {s : State} {ch : Channel} {f : ChannelRecord → ChannelRecord}
    (hf : (f (s.mf.get ch)).value = (s.mf.get ch).value) : (s.modifyChannel ch f).driveView = s.driveView := by
  have hd : ((s.modifyChannel ch f).mf.get .d).value = (s.mf.get .d).value := by
    rw [State.modifyChannel_get]
    split
    next e => rw [e, hf]
    next => rfl
  exact congrArg (fun v => { s.driveView with held := v }) hd

@[simp] theorem ChannelRecord.releaseBy_value (p : Port) (c : ChannelRecord) : (c.releaseBy p).value = c.value := by
  unfold ChannelRecord.releaseBy
  split
  · exact ChannelRecord.evalZero_value _
  · rfl

/-- A level input's pin and timer moved, its filtered level as it was. -/
theorem State.modifyLevel_driveView {s : State} {i : LevelInput} {f : LevelLine → LevelLine}
    (hf : i = .stop → (f s.mi.stop).filtered = s.mi.stop.filtered) :
    (s.modifyLevel i f).driveView = s.driveView := by
  cases i with
  | stop => exact congrArg (fun v => { s.driveView with stop := v }) (hf rfl)
  | tailgate => rfl
  | tableLoaded => rfl

/-! ### Operations that bring it into line -/

/-- The DV code brought into line where BALE_FULL is in line already. -/
theorem syncDv_safe {s : State} (hn : s.nrstAsserted = false) (hf : s.cu.baleFull = s.fullTarget) :
    DriveInv (syncDv s) := ⟨rfl, hf, fun e => absurd e (by simp [hn])⟩

theorem DriveInv.enterStage {s t : State} (h : DriveInv s) (hn : s.nrstAsserted = false)
    (e : t.driveView = s.driveView) (z : Zone) (st : Stage) : DriveInv (Machine.enterStage z st t) :=
  enterStage_drive z st ((congrArg DriveView.reset e).trans hn) (h.still e)

theorem DriveInv.grantEject {s : State} (h : DriveInv s) (hn : s.nrstAsserted = false) (queued : Bool) :
    DriveInv (Machine.grantEject queued s) := by
  unfold Machine.grantEject
  split
  · dsimp only
    have hemptied := s.modifyRecord_driveView .chamber (f := fun x => { x with ejectRequested := false })
      (fun _ => ⟨rfl, rfl⟩)
    have hmoved := h.enterStage (t := { s.modifyRecord .chamber (fun x => { x with ejectRequested := false }) with
      hu := { s.hu with ejectSlot := none } }) hn hemptied .chamber .ejecting
    cases queued <;> exact hmoved.still rfl
  · exact h

theorem DriveInv.evalGrant {s : State} (h : DriveInv s) (hn : s.nrstAsserted = false) :
    DriveInv (Machine.evalGrant s) := by
  unfold Machine.evalGrant
  split
  · exact h.grantEject hn true
  · exact h

/-- A closure elsewhere leaves the chamber record. -/
theorem State.HoldsIn.takeAway_chamber {s : State} {z : Zone} {older younger : List Bale} {b : Bale}
    (h : s.HoldsIn z older b younger) (hz : z ≠ .chamber) (r : Report) (q : Nat) :
    (takeAway z (older ++ younger) r q s).recordIn .chamber = s.recordIn .chamber := by
  obtain ⟨hl, hzone, -⟩ := h
  have hb : inZone .chamber b = false := by simpa [inZone, hzone] using hz
  simp [State.recordIn, takeAway, hl, List.find?_append, hb]

/-- A record taken away from another zone leaves the drive as it is. -/
theorem DriveInv.takeAway {s : State} (h : DriveInv s) (hn : s.nrstAsserted = false) {z : Zone}
    {older younger : List Bale} {b : Bale} (hh : s.HoldsIn z older b younger) (hz : z ≠ .chamber) (r : Report)
    (q : Nat) : DriveInv (Machine.takeAway z (older ++ younger) r q s) :=
  h.congr (by simp [Machine.takeAway]) (by simp [Machine.takeAway]) (by simp [Machine.takeAway])
    (hh.takeAway_chamber hz r q) (fun e => by simp [Machine.takeAway, hn] at e)

/-- A closure leaves the drive as it is, or, in the chamber, stops it (R24). -/
theorem DriveInv.closeRecord {s : State} (h : DriveInv s) (hn : s.nrstAsserted = false) (z : Zone)
    {reason : CloseReason} (hr : reason ≠ .reset) : DriveInv (Machine.closeRecord z reason s) := by
  cases hb : s.recordIn z with
  | none =>
    rw [Machine.closeRecord, hb]
    exact h
  | some b =>
    obtain ⟨older, younger, hh⟩ := State.holdsIn_of_recordIn hb
    cases z with
    | pre =>
      rw [hh.closeRecord_eq hr, closureNeighbours]
      exact h.takeAway hn hh (by decide) _ _
    | chamber =>
      rw [hh.closeRecord_eq hr, closureNeighbours]
      exact syncChamber_drive hn
    | table =>
      rw [hh.closeTable hr]
      have haway := h.takeAway hn hh (by decide) (b.closedBy reason s.bt.runClock) b.seq
      refine DriveInv.evalGrant (haway.still ?_) hn
      rfl

theorem createRecord_safe (slot : Nat) (r : Recipe) (st : Stage) {s : State} (hn : s.nrstAsserted = false) :
    DriveInv (createRecord slot r st s) := stageNeighbours_drive st _ hn

theorem DriveInv.returnToForming {s : State} (h : DriveInv s) (hn : s.nrstAsserted = false) :
    DriveInv (Machine.returnToForming s) :=
  h.enterStage (t := { s with cu := { s.cu with netCatchTimer := .stopped } }) hn rfl .chamber .forming

end Sys2Proof.Machine
end

section
/-! Proofs. Every row keeps the drive safe (R69, R73): the level inputs, the pulses and completions, the resets, the
requests. -/

namespace Sys2Proof.Machine

/-! ### Level inputs (R45, R46) -/

/-- BALE_FULL does not depend on STOP (R69). -/
theorem settle_stop_full {s : State} (h : DriveInv s) :
    (s.modifyLevel .stop LevelLine.settle).cu.baleFull = (s.modifyLevel .stop LevelLine.settle).fullTarget := by
  obtain ⟨-, hfull, -⟩ := h
  exact hfull

theorem flagStopSeen_fullTarget (s : State) : (flagStopSeen s).fullTarget = s.fullTarget := by
  rw [State.fullTarget_driveView, State.fullTarget_driveView]
  simp [State.driveView, flagStopSeen, Function.comp_def]

/-- STOP rising stops the valve; BALE_FULL stays (R45, R85). -/
theorem stopRising_safe {s : State} (hn : s.nrstAsserted = false) (hf : s.cu.baleFull = s.fullTarget) :
    DriveInv (stopRising s) :=
  syncDv_safe (s := { flagStopSeen s with
      cu := { s.cu with netCatchTimer := s.cu.netCatchTimer.suspend }
      hu := { s.hu with transferTimer := s.hu.transferTimer.suspend } })
    hn (hf.trans (flagStopSeen_fullTarget s).symm)

/-- STOP falling drives the valve again, at the code of the held D value (R72, R73). -/
theorem stopFalling_safe {s : State} (hn : s.nrstAsserted = false) (hf : s.cu.baleFull = s.fullTarget) :
    DriveInv (stopFalling s) := by
  have hn' : (resumeDrive s).nrstAsserted = false := (resumeDrive_frame s .nrst (by simp)).trans hn
  have hfull : (resumeDrive s).cu.baleFull = (resumeDrive s).fullTarget := by
    have hcu : (resumeDrive s).cu.baleFull = (recomputeCode s).cu.baleFull := rfl
    have hbt : (resumeDrive s).bt = s.bt := resumeDrive_frame s .bt (by simp)
    have hmf : (resumeDrive s).mf = s.mf := resumeDrive_frame s .mf (by simp)
    rw [hcu, recomputeCode_cu, State.fullTarget_eq, State.recordIn_congr (congrArg BaleTable.bales hbt), hmf,
      ← State.fullTarget_eq]
    exact hf
  rw [stopFalling_eq]
  exact DriveInv.evalGrant ⟨rfl, hfull, fun e => by simp [hn'] at e⟩ hn'

theorem DriveInv.arriveCoverage {s : State} (h : DriveInv s) (hn : s.nrstAsserted = false) (b : Bale) :
    DriveInv (arriveCoverage b s) := by
  let flagged := if b.moistureMean = none then s.flagRecord .table (fun f => { f with moistureUnknown := true }) else s
  have hflagged : flagged.driveView = s.driveView := by
    dsimp only [flagged]
    split
    · exact State.flagRecord_driveView _ _ _
    · rfl
  unfold Machine.arriveCoverage
  dsimp only
  split
  · exact (h.enterStage hn hflagged .table .wrapped).still rfl
  · refine h.enterStage hn (Eq.trans ?_ hflagged) .table .wrapping
    exact flagged.modifyRecord_driveView .table (fun _ => ⟨rfl, rfl⟩)

theorem DriveInv.tableLoadedRising {s : State} (h : DriveInv s) (hn : s.nrstAsserted = false) :
    DriveInv (tableLoadedRising s) := by
  unfold Machine.tableLoadedRising
  split
  next b _ =>
    split
    · exact (h.still (t := arriveHandover b.seq s) rfl).arriveCoverage hn b
    · exact h.still rfl
  next => exact h.still rfl

theorem DriveInv.tableLoadedFalling {s : State} (h : DriveInv s) (hn : s.nrstAsserted = false) :
    DriveInv (tableLoadedFalling s) := by
  unfold Machine.tableLoadedFalling
  split
  · split
    · exact h.closeRecord hn .table (by decide)
    · exact (h.flagRecord hn .table _).closeRecord hn .table (by decide)
    · exact h.closeRecord hn .table (by decide)
    · exact h
  · exact h

/-- Under nRST no record is live, so a filtered level bears on nothing; otherwise STOP's change is followed at once. -/
theorem DriveInv.stabilityExpiry {s : State} (h : DriveInv s) (i : LevelInput) : DriveInv (stabilityExpiry i s) := by
  have hsettled : i ≠ .stop → DriveInv (s.modifyLevel i LevelLine.settle) := fun hi =>
    h.still (State.modifyLevel_driveView (fun e => absurd e hi))
  unfold Machine.stabilityExpiry
  dsimp only
  split
  · exact h
  split
  next hquiet =>
    by_cases hi : i = .stop
    · subst hi
      rcases hquiet with hn | hp
      · have hempty : s.bt.bales = [] := h.2.2 hn
        exact (driveInv_iff_of_empty (s := s.modifyLevel .stop LevelLine.settle) hempty).mpr
          ((driveInv_iff_of_empty hempty).mp h)
      · exact h.still (State.modifyLevel_driveView (fun _ => hp))
    · exact hsettled hi
  next hloud =>
    have hn : (s.modifyLevel i LevelLine.settle).nrstAsserted = false := by
      simpa using fun e => hloud (.inl e)
    generalize (s.mi.level i).pin = rising
    cases i with
    | tailgate => exact hsettled (by decide)
    | stop =>
      cases rising with
      | true => exact stopRising_safe hn (settle_stop_full h)
      | false => exact stopFalling_safe hn (settle_stop_full h)
    | tableLoaded =>
      cases rising with
      | true => exact (hsettled (by decide)).tableLoadedRising hn
      | false => exact (hsettled (by decide)).tableLoadedFalling hn

/-! ### Pulses (R47 to R50) -/

theorem DriveInv.tablePulse {s : State} (h : DriveInv s) (hn : s.nrstAsserted = false) : DriveInv (tablePulse s) := by
  let angled := s.withAngle (angleAfter s.rs.constants.tablePulses s.mi.angle)
  have hsilent : DriveInv (stepSilences angled) := stepSilences_drive hn (h.still rfl)
  have hn' : (stepSilences angled).nrstAsserted = false := (stepSilences_frame angled .nrst (by simp)).trans hn
  unfold Machine.tablePulse
  dsimp only
  split
  · exact layPosition_drive .two hn' hsilent
  · exact hsilent

theorem DriveInv.stepRevolution {s : State} (h : DriveInv s) (hn : s.nrstAsserted = false) :
    DriveInv (stepRevolution s) := by
  have hturned := fun f => h.modifyWrap hn f
  unfold Machine.stepRevolution capWrap
  split
  · split
    · exact (h.enterStage hn ((State.flagRecord_driveView _ _ _).trans (State.modifyWrap_driveView _ _)) .table
        .wrapped).still rfl
    · exact hturned _
  · exact hturned _

theorem DriveInv.tableIndex {s : State} (h : DriveInv s) (hn : s.nrstAsserted = false) : DriveInv (tableIndex s) := by
  have hlaid : DriveInv (layPosition .one (s.withAngle 0)) := layPosition_drive .one hn (h.still rfl)
  have hn' : (layPosition .one (s.withAngle 0)).nrstAsserted = false :=
    (layPosition_frame .one (s.withAngle 0) .nrst (by simp [arbiters])).trans hn
  unfold Machine.tableIndex
  dsimp only
  split
  · exact hlaid.stepRevolution hn'
  · exact hlaid

theorem DriveInv.baleRoll {s : State} (h : DriveInv s) : DriveInv (baleRoll s) := by
  unfold Machine.baleRoll
  split
  · exact h.still (s.modifyWrap_driveView _)
  · exact h

/-- The chamber record's net fields written by a pulse, its net-catch timer stopped (R79). -/
def State.meterChamber (s : State) (n : NetFields) : State :=
  { s.modifyRecord .chamber (fun x => { x with net := some n }) with
    cu := { s.cu with netCatchTimer := .stopped } }

/-- Everything CU makes of a net metering pulse (R79, R80): a stray one changes nothing; a NETTING record meters, and
completes at its target. -/
theorem meterNet_cases (s : State) :
    ((∀ b, s.recordIn .chamber = some b → b.stage = .netting → b.net = none) ∧ meterNet s = s) ∨
      ∃ b n n', s.recordIn .chamber = some b ∧ b.stage = .netting ∧ b.net = some n ∧
        n' = { n with metered := n.metered + s.rs.constants.netStep } ∧
        (n'.metered < n.target ∧ meterNet s = s.meterChamber n' ∨
          n.target ≤ n'.metered ∧ meterNet s = completeNetting b n' (s.meterChamber n')) := by
  unfold meterNet
  split
  next b hb =>
    split
    next n hst hn =>
      refine .inr ⟨b, n, _, hb, hst, hn, rfl, ?_⟩
      dsimp only
      split
      next hdone => exact .inr ⟨hdone, rfl⟩
      next hshort => exact .inl ⟨Nat.lt_of_not_le hshort, rfl⟩
    next hstray =>
      refine .inl ⟨fun c hc hst => ?_, rfl⟩
      rw [hb, Option.some.injEq] at hc
      subst hc
      exact Option.eq_none_iff_forall_ne_some.mpr (fun n hn => hstray n hst hn)
  next hnone => exact .inl ⟨fun b hb => absurd hb (by simp [hnone]), rfl⟩

@[simp] theorem State.meterChamber_driveView (s : State) (n : NetFields) : (s.meterChamber n).driveView = s.driveView :=
  s.modifyRecord_driveView .chamber (f := fun x => { x with net := some n }) (fun _ => ⟨rfl, rfl⟩)

theorem DriveInv.completeNetting {s : State} (h : DriveInv s) (hn : s.nrstAsserted = false) (b : Bale)
    (n : NetFields) : DriveInv (completeNetting b n s) := by
  have hturns := s.modifyRecord_driveView .chamber
    (f := fun x => { x with netTurns := some (netTurnsOf b.recipe n) }) (fun _ => ⟨rfl, rfl⟩)
  exact (h.enterStage hn hturns .chamber .netted).still rfl

theorem DriveInv.netRoll {s : State} (h : DriveInv s) (hn : s.nrstAsserted = false) : DriveInv (netRoll s) := by
  suffices hmetered : DriveInv (meterNet s) from hmetered.still rfl
  rcases meterNet_cases s with ⟨-, he⟩ | ⟨b, n, n', -, -, -, -, ⟨-, he⟩ | ⟨-, he⟩⟩ <;> rw [he]
  · exact h
  · exact h.still (s.meterChamber_driveView n')
  · exact (h.still (s.meterChamber_driveView n')).completeNetting hn b n'

/-! ### Completions and timers -/

theorem Bale.withPressure_kept (b : Bale) (value : Nat) :
    (b.withPressure value).stage = b.stage ∧ (b.withPressure value).recipe = b.recipe := by
  unfold Bale.withPressure
  split <;> exact ⟨rfl, rfl⟩

theorem Bale.withMoisture_kept (b : Bale) (value : Nat) :
    (b.withMoisture value).stage = b.stage ∧ (b.withMoisture value).recipe = b.recipe := by
  unfold Bale.withMoisture
  split <;> exact ⟨rfl, rfl⟩

/-- The lockout is followed at once (R67, R73). -/
theorem DriveInv.usePressure {s : State} (h : DriveInv s) (hn : s.nrstAsserted = false) (value : Nat) :
    DriveInv (usePressure value s) := by
  obtain ⟨-, hfull, -⟩ := h
  have hpeak : (s.modifyRecord .chamber (·.withPressure value)).driveView = s.driveView :=
    s.modifyRecord_driveView .chamber (·.withPressure_kept value)
  let tested : State := { s.modifyRecord .chamber (·.withPressure value) with
    cu := { s.cu with lockout := lockoutAfter s.rs.constants s.cu.lockout value } }
  have htested : tested.cu.baleFull = tested.fullTarget := by
    rw [State.fullTarget_driveView] at hfull ⊢
    rw [← hpeak] at hfull
    exact hfull
  have hflagged : ∀ f, (tested.flagRecord .chamber f).cu.baleFull = (tested.flagRecord .chamber f).fullTarget := by
    intro f
    rw [State.fullTarget_driveView, State.flagRecord_driveView, ← State.fullTarget_driveView]
    exact htested
  unfold Machine.usePressure
  dsimp only
  split
  · exact syncDv_safe hn (hflagged _)
  · exact syncDv_safe hn htested

/-- The chamber follows D at once (R69, R72); P and M write nothing it depends on but the lockout. -/
theorem DriveInv.conversionCompletion {s : State} (h : DriveInv s) (ch : Channel) (raw : Int) :
    DriveInv (conversionCompletion ch raw s) := by
  unfold Machine.conversionCompletion
  split
  · exact h
  next hrunning =>
    have hn : s.nrstAsserted = false := by simpa using fun e => hrunning (.inl e)
    refine DriveInv.still ?_ (State.modifyChannel_driveView (ChannelRecord.evalZero_value _))
    have hstored : ch ≠ .d → DriveInv (s.modifyChannel ch (·.convert (s.rs.chan.get ch) (channelTop ch) raw)) :=
      fun hch => by
        cases ch with
        | p => exact h.still rfl
        | d => exact absurd rfl hch
        | m => exact h.still rfl
    cases ch with
    | p => exact (hstored (by decide)).usePressure hn _
    | d => exact syncChamber_drive (by simpa using hn)
    | m => exact (hstored (by decide)).still (State.modifyRecord_driveView _ .chamber (·.withMoisture_kept _))

theorem zeroDueExpiry_driveView (ch : Channel) (s : State) : (zeroDueExpiry ch s).driveView = s.driveView := by
  unfold zeroDueExpiry
  split
  · rfl
  split
  · exact State.modifyChannel_driveView (ChannelRecord.evalZero_value _)
  split
  · exact (setLatchAll_driveView _ _ _ _).trans (State.modifyChannel_driveView (by rfl))
  · exact State.modifyChannel_driveView (by rfl)

theorem autoZeroCompletion_driveView (ch : Channel) (s : State) :
    (autoZeroCompletion ch s).driveView = s.driveView := by
  unfold autoZeroCompletion
  split
  · rfl
  · exact State.modifyChannel_driveView (by rfl)

theorem DriveInv.netCatchExpiry {s : State} (h : DriveInv s) : DriveInv (netCatchExpiry s) := by
  unfold Machine.netCatchExpiry
  split
  next b hb =>
    split
    · exact (h.returnToForming (h.live hb)).still rfl
    · exact h
  next => exact h

theorem transferExpiry_driveView (s : State) : (transferExpiry s).driveView = s.driveView := by
  unfold transferExpiry
  split
  · split
    · exact State.flagRecord_driveView { s with hu := { s.hu with transferTimer := .stopped } } .table
        (fun f => { f with transferFault := true })
    · rfl
  · rfl

/-! ### Resets (R26, R27, R202) -/

theorem powerOn_safe (straps : Straps) (s : State) : DriveInv (powerOn straps s) :=
  (driveInv_iff_of_empty rfl).mpr ⟨rfl, rfl⟩

theorem assertReset_safe (s : State) : DriveInv (assertReset s) := by
  obtain ⟨hbt, -, -⟩ := closeAll_reset s
  exact (driveInv_iff_of_empty (s := assertReset s) (congrArg BaleTable.bales hbt)).mpr ⟨rfl, rfl⟩

theorem DriveInv.releaseReset {s : State} (h : DriveInv s) (hn : s.nrstAsserted = true) (straps : Straps) :
    DriveInv (releaseReset straps s) := by
  have hempty : s.bt.bales = [] := h.2.2 hn
  exact (driveInv_iff_of_empty (s := Machine.releaseReset straps s) hempty).mpr ((driveInv_iff_of_empty hempty).mp h)

end Sys2Proof.Machine
end

section
/-! Proofs. The requests and the drive (R69, R73), and the statement that every step keeps the drive safe. -/

namespace Sys2Proof.Machine

/-! ### Commands that leave what the drive depends on -/

/-- The commands that move or close a record, and the eject's request and release; no other command reaches the
drive. -/
def Command.reachesDrive : Command → Bool
  | .openBale | .dumpPrechamber | .netStart | .netAbort | .requestEject | .cancelEject | .discardBale | .tip
  | .abandonWrap | .freeTable => true
  | _ => false

theorem acknowledge_driveView (p : Port) (src : Source) (i : Fin 4) (s : State) :
    (acknowledge p src i s).1.driveView = s.driveView := by
  unfold acknowledge
  dsimp only
  split <;> rfl

theorem readBaleImage_driveView (p : Port) (found : Option Bale) (s : State) :
    (readBaleImage p found s).1.driveView = s.driveView := by
  cases found with
  | none => rfl
  | some b => exact s.setImage_driveView p _

/-- A change of the machine constants drives nothing until the next completion (R61). -/
theorem cmdSetMachine_driveView (p : Port) (pl : List Byte) (s : State) :
    (cmdSetMachine p pl s).1.driveView = s.driveView := by
  have hchannel : ∀ ch group, (setChannelGroup ch group pl s).1.driveView = s.driveView := fun ch group => by
    unfold setChannelGroup
    dsimp only
    split <;> rfl
  have hconstants : (setConstantsGroup pl s).1.driveView = s.driveView := by
    unfold setConstantsGroup applyConstants
    dsimp only
    split <;> rfl
  unfold cmdSetMachine
  dsimp only
  (repeat' split) <;> first | rfl | exact hchannel _ _ | exact hconstants

theorem cmdPortReset_driveView (p : Port) (pl : List Byte) (s : State) :
    (cmdPortReset p pl s).1.driveView = s.driveView := by
  have hd : ((cmdPortReset p pl s).1.mf.get .d).value = (s.mf.get .d).value := by
    rw [cmdPortReset_mf, ChannelRecord.releaseBy_value]
  have hrest : (cmdPortReset p pl s).1.driveView =
      { s.driveView with held := ((cmdPortReset p pl s).1.mf.get .d).value } := by cases p <;> rfl
  rw [hrest, hd]
  rfl

theorem ownBlock_driveView (c : Command) (p : Port) (pl : List Byte) (s : State) (hc : c.reachesDrive = false) :
    (ownBlock c p pl s).1.driveView = s.driveView := by
  cases c with
  | openBale | dumpPrechamber | netStart | netAbort | requestEject | cancelEject | discardBale | tip | abandonWrap
  | freeTable => cases hc
  | identify | readStatus | takeNotice | setNoticePlan | readStock | holdTable => rfl
  | setMachine => exact cmdSetMachine_driveView p pl s
  | portReset => exact cmdPortReset_driveView p pl s
  | ackNotice =>
    simp only [ownBlock, cmdAckNotice]
    split
    · exact acknowledge_driveView _ _ _ _
    · rfl
  | ackCurrent =>
    simp only [ownBlock, cmdAckCurrent]
    split
    · exact acknowledge_driveView _ _ _ _
    · rfl
  | readBale =>
    simp only [ownBlock, cmdReadBale]
    (repeat' split) <;> first | rfl | exact readBaleImage_driveView _ _ _
  | readNext => simp only [ownBlock, cmdReadNext]; (repeat' split) <;> simp
  | readLinkStats => simp only [ownBlock, cmdReadLinkStats]; (repeat' split) <;> simp
  | readChannel => simp only [ownBlock, cmdReadChannel]; split <;> rfl
  | holdZero =>
    simp only [ownBlock, cmdHoldZero]
    split
    · rfl
    · exact State.modifyChannel_driveView (by rfl)
  | releaseZero =>
    simp only [ownBlock, cmdReleaseZero]
    split
    · rfl
    · exact State.modifyChannel_driveView (ChannelRecord.releaseBy_value p _)
  | prezero =>
    simp only [ownBlock, cmdPrezero]
    (repeat' split) <;> first | rfl | exact State.modifyChannel_driveView (by rfl)
  | restoreDispenser => simp only [ownBlock, cmdRestoreDispenser]; (repeat' split) <;> rfl
  | withdrawDispenser => simp only [ownBlock, cmdWithdrawDispenser]; split <;> rfl
  | loadRecipe => simp only [ownBlock, cmdLoadRecipe]; split <;> rfl
  | readRecipe => simp only [ownBlock, cmdReadRecipe, takeImage]; split <;> simp
  | readMachine => simp only [ownBlock, cmdReadMachine]; (repeat' split) <;> rfl
  | newRoll => simp only [ownBlock, cmdNewRoll]; (repeat' split) <;> rfl
  | fetchReport => simp only [ownBlock, cmdFetchReport, takeImage]; split <;> simp
  | releaseReport => simp only [ownBlock, cmdReleaseReport]; (repeat' split) <;> rfl
  | queueStatus => simp only [ownBlock, cmdQueueStatus]; split <;> rfl

/-! ### Commands that reach it -/

theorem DriveInv.cmdNetStart {s : State} (h : DriveInv s) (hn : s.nrstAsserted = false) (p : Port) (pl : List Byte) :
    DriveInv (cmdNetStart p pl s).1 := by
  unfold Machine.cmdNetStart
  split
  · exact h
  split
  · exact h
  split
  · exact h
  · refine h.enterStage hn ?_ .chamber .netting
    exact s.modifyRecord_driveView .chamber (f := fun x => x.withNetStart s.startDiameter s.mf.d.stale)
      (fun _ => ⟨rfl, rfl⟩)

theorem DriveInv.cmdTip {s : State} (h : DriveInv s) (hn : s.nrstAsserted = false) (p : Port) (pl : List Byte) :
    DriveInv (cmdTip p pl s).1 := by
  unfold Machine.cmdTip
  dsimp only
  (repeat' split) <;> first
    | exact h
    | exact h.enterStage hn rfl .table .tipping
    | exact h.enterStage hn (s.flagRecord_driveView .table _) .table .tipping

theorem placeRequest_driveView (q : Nat) (s : State) : (placeRequest q s).driveView = s.driveView :=
  s.modifyRecord_driveView .chamber (f := fun b => { b with ejectRequested := true }) (fun _ => ⟨rfl, rfl⟩)

theorem withdrawRequest_driveView (q : Nat) (s : State) : (withdrawRequest q s).driveView = s.driveView :=
  s.modifyRecord_driveView .chamber (f := fun b => { b with ejectRequested := false }) (fun _ => ⟨rfl, rfl⟩)

theorem DriveInv.ownBlock {s : State} (h : DriveInv s) (hn : s.nrstAsserted = false) (c : Command) (p : Port)
    (pl : List Byte) : DriveInv (ownBlock c p pl s).1 := by
  cases hc : c.reachesDrive with
  | false => exact h.still (ownBlock_driveView c p pl s hc)
  | true =>
    cases c with
    | openBale =>
      simp only [Machine.ownBlock, cmdOpenBale]
      (repeat' split) <;> first | exact h | exact createRecord_safe _ _ _ hn
    | dumpPrechamber =>
      simp only [Machine.ownBlock, cmdDumpPrechamber]
      (repeat' split) <;> first | exact h | exact h.enterStage hn rfl .pre .forming
    | netStart => exact h.cmdNetStart hn p pl
    | netAbort =>
      simp only [Machine.ownBlock, cmdNetAbort]
      (repeat' split) <;> first | exact h | exact h.returnToForming hn
    | requestEject =>
      simp only [Machine.ownBlock, cmdRequestEject]
      (repeat' split) <;> first
        | exact h
        | exact h.grantEject hn false
        | exact h.still (placeRequest_driveView _ s)
    | cancelEject =>
      simp only [Machine.ownBlock, cmdCancelEject]
      (repeat' split) <;> first | exact h | exact h.still (withdrawRequest_driveView _ s)
    | discardBale =>
      simp only [Machine.ownBlock, cmdDiscardBale]
      (repeat' split) <;> first | exact h | exact h.closeRecord hn _ (discardReason_ne_reset _)
    | tip => exact h.cmdTip hn p pl
    | abandonWrap =>
      simp only [Machine.ownBlock, cmdAbandonWrap]
      split
      · exact h
      · exact h.enterStage hn (s.flagRecord_driveView .table _) .table .wrapped
    | freeTable =>
      exact DriveInv.evalGrant (s := { s with hu := { s.hu with tableHold := false } }) (h.still rfl) hn
    | _ => cases hc

/-! ### Every row -/

theorem driveInv_keptByRequests : KeptByRequests DriveInv :=
  .of_ownBlock (fun hframe h => h.still (hframe.driveView (by simp [linkBlocks, arbiters])))
    (fun c p pl _ hn h => h.ownBlock hn c p pl)

/-- A row that leaves the state as it is under nRST. -/
theorem DriveInv.unlessReset {s t : State} (hs : DriveInv s) (ht : s.nrstAsserted = false → DriveInv t) :
    DriveInv (if s.nrstAsserted then s else t) := by
  split
  · exact hs
  next hn => exact ht (by simpa using hn)

theorem DriveInv.refresh {s : State} (h : DriveInv s) : DriveInv (refreshAttention s) :=
  h.still (refreshAttention_driveView s)

theorem exec_drive (i : Instr) {s t : State} (h : DriveInv s) (he : exec i s = .next t) : DriveInv t := by
  cases hi : onLinks i with
  | true => exact driveInv_keptByRequests.exec hi h he
  | false =>
    cases i with
    | powerOnReset straps => cases he; exact (powerOn_safe straps s).refresh
    | pinResetAssertion => cases he; exact (assertReset_safe s).refresh
    | pinResetRelease straps =>
      cases he
      split
      next hn => exact (h.releaseReset hn straps).refresh
      next => exact h.refresh
    | runClockTick => cases he; exact h.still rfl
    | pdmOutputSlot => cases he; exact h.still rfl
    | levelPinChange input asserted =>
      cases he
      exact h.still (State.modifyLevel_driveView (fun _ => LevelLine.pinTo_filtered _ asserted))
    | stabilityTimerExpiry input => cases he; exact (h.stabilityExpiry input).refresh
    | tablePulse => cases he; exact (h.unlessReset h.tablePulse).refresh
    | tableIndex => cases he; exact (h.unlessReset h.tableIndex).refresh
    | baleRoll => cases he; exact (h.unlessReset (fun _ => h.baleRoll)).refresh
    | netRoll => cases he; exact (h.unlessReset h.netRoll).refresh
    | filmPulse k => cases he; exact (h.unlessReset (fun _ => h.still (s.modifyDispenser_driveView k _))).refresh
    | conversionCompletion ch raw => cases he; exact (h.conversionCompletion ch raw).refresh
    | zeroDueExpiry ch => cases he; exact (h.still (zeroDueExpiry_driveView ch s)).refresh
    | autoZeroCompletion ch => cases he; exact (h.still (autoZeroCompletion_driveView ch s)).refresh
    | netCatchExpiry => cases he; exact h.netCatchExpiry.refresh
    | transferTimerExpiry => cases he; exact (h.still (transferExpiry_driveView s)).refresh
    | _ => cases hi

/-- Settles O55: what a row changes of the causes of R69 and R73 it follows with the DV code and BALE_FULL, and under
nRST no record is live that could drive the valve. -/
theorem driveStaysSafe : Obligations.DriveStaysSafe := by
  intro s t hs hstep
  unfold step at hstep
  split at hstep
  · cases hstep; exact hs
  next c rest _ => exact exec_drive c (s := { s with pending := rest }) (hs.still rfl) hstep

end Sys2Proof.Machine
end

section
/-! Proofs. The net: the entries to NETTING and NETTED, the return to FORMING, a net metering pulse (R79, R80, R145),
the expiries of the net-catch and of the transfer timer (R82, R98). -/

namespace Sys2Proof.Machine

/-! ### Stage changes within the chamber -/

/-- The drive of a chamber record, where it is in line. -/
theorem DriveInv.chamber {s : State} {b : Bale} (h : DriveInv s) (hb : s.recordIn .chamber = some b) :
    s.cu.dvCode = driveCode s.mi.stop.filtered s.cu.lockout true s.cu.computedCode ∧
    s.cu.baleFull = fullFor (some b) s.mf.d.value := by
  obtain ⟨hdv, hfull, -⟩ := h
  rw [State.dvTarget_eq, hb] at hdv
  rw [State.fullTarget_eq, hb] at hfull
  exact ⟨hdv, hfull⟩

/-- An entry to NETTING or NETTED touches the record, CU and the arbiters. -/
theorem enterNet_frame {st : Stage} (hst : st = .netting ∨ st = .netted) (z : Zone) (s : State) :
    OnlyChanges (.bt :: .cu :: arbiters) s (enterStage z st s) := by
  unfold enterStage
  split
  next b _ =>
    have hneighbours : ∀ u, stageNeighbours st b.seq u = syncChamber u := by
      rcases hst with rfl | rfl <;> exact fun _ => rfl
    rw [hneighbours]
    exact ((State.modifyRecord_frame _ _ s).mono (by simp)).trans
      (((setStageLatches_frame _ _ _).mono (by simp +contextual)).trans ((syncChamber_frame _).mono (by simp)))
  next => exact .refl _ _

/-- An entry to NETTING or NETTED, once said: the record in its place, BALE_FULL off and the DV code in line, the STAGE
settings (R13 to R15, R69, R73). -/
theorem State.HoldsIn.enterNet {s : State} {older younger : List Bale} {b : Bale}
    (h : s.HoldsIn .chamber older b younger) {st : Stage} (hst : st = .netting ∨ st = .netted) :
    BalesBecome (older ++ b.toStage st s.bt.runClock :: younger) s (Machine.enterStage .chamber st s) ∧
    (Machine.enterStage .chamber st s).cu = { s.cu with
      dvCode := driveCode s.mi.stop.filtered s.cu.lockout true s.cu.computedCode, baleFull := false } ∧
    (s.nrstAsserted = false → Hands (stageSettings .chamber b.seq) s (Machine.enterStage .chamber st s)) := by
  let placed : State := setStageLatches .chamber b.seq
    { s with bt := { s.bt with bales := older ++ b.toStage st s.bt.runClock :: younger } }
  have hzone : st.zone = .chamber := by rcases hst with rfl | rfl <;> rfl
  have hentered : Machine.enterStage .chamber st s = syncChamber placed := by
    rw [h.enterStage]
    rcases hst with rfl | rfl <;> rfl
  have hrecord : placed.recordIn .chamber = some (b.toStage st s.bt.runClock) :=
    State.HoldsIn.recordIn (older := older) (younger := younger) ⟨rfl, hzone, h.2.2⟩
  have hfull : fullFor (some (b.toStage st s.bt.runClock)) placed.mf.d.value = false := by
    rcases hst with rfl | rfl <;> rfl
  rw [hentered, syncChamber_eq, hrecord, hfull]
  exact ⟨rfl, rfl, fun hn => (Hands.stage .chamber b.seq
    (s := { s with bt := { s.bt with bales := older ++ b.toStage st s.bt.runClock :: younger } }) hn).congr rfl rfl⟩

/-- The return from NETTING, once said (R82 steps 1 to 3, R83). -/
theorem State.HoldsIn.returnToForming {s : State} {older younger : List Bale} {b : Bale}
    (h : s.HoldsIn .chamber older b younger) (hn : s.nrstAsserted = false) :
    BalesBecome (older ++ { b with stage := .forming, formed := some (b.formed.getD s.bt.runClock) } :: younger) s
      (Machine.returnToForming s) ∧
    ChamberBecomes (some { b with stage := .forming }) (codeFor s.rs.constants b.recipe s.mf.d.value) .stopped s
      (Machine.returnToForming s) ∧
    Hands (stageSettings .chamber b.seq) s (Machine.returnToForming s) ∧
    OnlyChanges (.bt :: .cu :: arbiters) s (Machine.returnToForming s) := by
  have hstopped : State.HoldsIn { s with cu := { s.cu with netCatchTimer := .stopped } } .chamber older b younger := h
  obtain ⟨hbt, hcu, hhands, hframe⟩ := hstopped.enterForming h.2.2
  exact ⟨hbt, hcu, (hhands hn).congr rfl rfl, (OnlyChanges.mono (.of_cu s _) (by simp)).trans hframe⟩

/-! ### A net metering pulse (R79, R80, R145) -/

theorem State.meterChamber_frame (s : State) (n : NetFields) : OnlyChanges [.bt, .cu] s (s.meterChamber n) :=
  ((State.modifyRecord_frame .chamber _ s).mono (by simp)).trans ((OnlyChanges.of_cu _ _).mono (by simp))

theorem State.HoldsIn.meterChamber {s : State} {older younger : List Bale} {b : Bale}
    (h : s.HoldsIn .chamber older b younger) (n : NetFields) :
    (s.meterChamber n).HoldsIn .chamber older { b with net := some n } younger :=
  (h.modified (fun x => { x with net := some n }) h.2.1).congr rfl

theorem completeNetting_frame (b : Bale) (n : NetFields) (s : State) :
    OnlyChanges (.bt :: .cu :: arbiters) s (completeNetting b n s) :=
  ((State.modifyRecord_frame .chamber _ s).mono (by simp)).trans
    ((enterNet_frame (.inr rfl) .chamber _).trans ((setLatch_frame _ _ _ _ _).mono (by simp [arbiters])))

/-- A pulse reaches the chamber record, CU and port A's arbiter, beside the stock. -/
theorem meterNet_frame (s : State) : OnlyChanges (.bt :: .cu :: arbiters) s (meterNet s) := by
  have hmeter := fun n => (s.meterChamber_frame n).mono (many := .bt :: .cu :: arbiters) (by simp)
  rcases meterNet_cases s with ⟨-, he⟩ | ⟨b, n, n', -, -, -, -, ⟨-, he⟩ | ⟨-, he⟩⟩ <;> rw [he]
  · exact .refl _ _
  · exact hmeter n'
  · exact (hmeter n').trans (completeNetting_frame b n' _)

/-- The charge of a pulse reaches DS alone (R145). -/
theorem chargeNet_frame (s : State) : OnlyChanges [.ds] s (chargeNet s) := by
  intro k hk
  cases k with
  | arbiter p => exact ⟨rfl, rfl, rfl⟩
  | link p => cases p <;> rfl
  | _ => first | rfl | simp at hk

theorem meterNet_stray {s : State} (h : ∀ b, s.recordIn .chamber = some b → b.stage ≠ .netting) : meterNet s = s := by
  rcases meterNet_cases s with ⟨-, he⟩ | ⟨b, -, -, hb, hst, -⟩
  · exact he
  · exact absurd hst (h b hb)

/-- What a pulse does to a NETTING record, short of its target and at it. -/
theorem State.HoldsIn.meterNet {s : State} {older younger : List Bale} {b : Bale} {n : NetFields}
    (h : s.HoldsIn .chamber older b younger) (hst : b.stage = .netting) (hnet : b.net = some n) {n' : NetFields}
    (hn' : n' = { n with metered := n.metered + s.rs.constants.netStep }) :
    (n'.metered < n.target → Machine.meterNet s = s.meterChamber n') ∧
    (n.target ≤ n'.metered → Machine.meterNet s = completeNetting b n' (s.meterChamber n')) := by
  rcases meterNet_cases s with ⟨hstray, -⟩ | ⟨c, m, m', hc, -, hm, hm', he⟩
  · exact absurd (hstray b h.recordIn hst) (by simp [hnet])
  · rw [h.recordIn, Option.some.injEq] at hc
    subst hc
    rw [hnet, Option.some.injEq] at hm
    subst hm hn' hm'
    rcases he with ⟨hshort, he⟩ | ⟨hdone, he⟩
    · exact ⟨fun _ => he, fun hd => absurd hd (by omega)⟩
    · exact ⟨fun hs => absurd hs (by omega), fun _ => he⟩

/-- Netting completed on a record that has just metered (R80): the drive, in line before, stays as it is. -/
theorem State.HoldsIn.completeNetting {s : State} {older younger : List Bale} {b : Bale}
    (h : s.HoldsIn .chamber older b younger) (hst : b.stage = .netting) (hn : s.nrstAsserted = false) (hd : DriveInv s)
    (n : NetFields) :
    BalesBecome (older ++ { b with
        net := some n, netTurns := some ((n.metered - b.recipe.tail * 10) * 10 / n.circ), stage := .netted
        netted := some s.bt.runClock
        moistureMean := if b.moistureCount = 0 then none else some (b.moistureSum / b.moistureCount) } :: younger) s
      (Machine.completeNetting b n (s.meterChamber n)) ∧
    (Machine.completeNetting b n (s.meterChamber n)).cu = { s.cu with netCatchTimer := .stopped } ∧
    Hands (stageSettings .chamber b.seq ++ [⟨.a, .netDone, 0, b.seq⟩]) s
      (Machine.completeNetting b n (s.meterChamber n)) := by
  have hturned := (h.meterChamber n).modified (fun x => { x with netTurns := some (netTurnsOf b.recipe n) }) h.2.1
  obtain ⟨hbt, hcu, hhands⟩ := hturned.enterNet (st := .netted) (.inr rfl)
  obtain ⟨hdv, hfull⟩ := hd.chamber h.recordIn
  refine ⟨?_, ?_, ?_⟩
  · rw [BalesBecome] at hbt ⊢
    refine hbt.trans ?_
    simp [Bale.toStage, Bale.mean, netTurnsOf, State.meterChamber]
  · refine hcu.trans ?_
    have hoff : s.cu.baleFull = false := by rw [hfull]; simp [fullFor, hst]
    rw [← hoff]
    simp [State.meterChamber, ← hdv]
  · refine Hands.append ((hhands hn).congr (s' := s) rfl rfl) (Hands.one _ _ _ _ ?_) ?_
    · simpa [State.meterChamber] using hn
    · simp [stageSettings, Setting.apart]

/-! ### The net-catch timer and the transfer timer (R82, R98) -/

theorem netCatchExpiry_stopped {s : State} (h : s.cu.netCatchTimer.isRunning = false) : netCatchExpiry s = s := by
  unfold netCatchExpiry
  split
  · exact if_neg (by simp [h])
  · rfl

theorem netCatchExpiry_running {s : State} {b : Bale} (h : s.cu.netCatchTimer.isRunning = true)
    (hb : s.recordIn .chamber = some b) (hst : b.stage = .netting) :
    netCatchExpiry s = setLatch .a .netMiss 0 b.seq (returnToForming s) := by
  simp [netCatchExpiry, hb, h, hst]

theorem transferExpiry_stopped {s : State} (h : s.hu.transferTimer.isRunning = false) : transferExpiry s = s := by
  unfold transferExpiry
  split
  · exact if_neg (by simp [h])
  · rfl

/-- The record in transfer marked, the transfer timer stopped; port A's and port B's settings come next (R98). -/
def failTransfer (s : State) : State :=
  { s with hu := { s.hu with transferTimer := .stopped } }.flagRecord .table (fun f => { f with transferFault := true })

theorem transferExpiry_running {s : State} {b : Bale} (h : s.hu.transferTimer.isRunning = true)
    (hb : s.recordIn .table = some b) (hst : b.stage = .ejecting) :
    transferExpiry s = setLatch .b .transfer 1 b.seq (setLatch .a .transfer 1 b.seq (failTransfer s)) := by
  simp [transferExpiry, hb, h, hst, failTransfer]

theorem failTransfer_frame (s : State) : OnlyChanges [.bt, .hu] s (failTransfer s) :=
  ((OnlyChanges.of_hu s _).mono (by simp)).trans ((State.modifyRecord_frame _ _ _).mono (by simp))

/-- Settles O23: each expiry by its timer, the first as the return to FORMING with NET_MISS, the second in its place. -/
theorem netCatchAndTransferExpiry : Obligations.NetCatchAndTransferExpiry := by
  refine ⟨fun s hn => .intro rfl ⟨fun hstopped => ?_, fun older younger b hrunning hb hst => ?_⟩,
    fun s hn => .intro rfl ⟨fun hstopped => ?_, fun older younger b hrunning hb hst => ?_⟩⟩
  · rw [netCatchExpiry_stopped hstopped]
    simpa using .refl [] s
  · obtain ⟨hbt, hcu, hhands, hframe⟩ := hb.returnToForming hn
    rw [netCatchExpiry_running hrunning hb.recordIn hst]
    refine ⟨hbt, hcu, Hands.refresh (hhands.append (Hands.one _ _ _ _ (by simpa using hn)) ?_), ?_⟩
    · simp [stageSettings, Setting.apart]
    · rw [OnlyChanges_refreshAttention]
      exact hframe.trans ((setLatch_frame _ _ _ _ _).mono (by simp [arbiters]))
  · rw [transferExpiry_stopped hstopped]
    simpa using .refl [] s
  · rw [transferExpiry_running hrunning hb.recordIn hst]
    have hbt : BalesBecome (older ++ { b with flags := { b.flags with transferFault := true } } :: younger) s
        (failTransfer s) := by
      have hfailed := State.HoldsIn.modifyRecord (s := { s with hu := { s.hu with transferTimer := .stopped } }) hb
        (fun x => { x with flags := { x.flags with transferFault := true } })
      exact congrArg State.bt hfailed
    refine ⟨hbt, rfl, Hands.refresh ?_, ?_⟩
    · exact Hands.append (xs := [⟨.a, .transfer, 1, b.seq⟩])
        ((Hands.one .a .transfer 1 b.seq (s := failTransfer s) hn).congr (s' := s) rfl rfl)
        (Hands.one .b .transfer 1 b.seq hn) (by simp [Setting.apart])
    · rw [OnlyChanges_refreshAttention]
      exact ((failTransfer_frame s).mono (by simp)).trans
        (((setLatch_frame _ _ _ _ _).mono (by simp)).trans ((setLatch_frame _ _ _ _ _).mono (by simp)))

end Sys2Proof.Machine

namespace Sys2Proof.Proofs

open Machine

/-- Settles O15: the stock apart from the chamber, and the chamber by whether the pulse is stray, short of the target,
or at it. -/
theorem netRoll : Obligations.NetRoll := by
  intro s hn
  have hmeter := meterNet_frame s
  have hds : (meterNet s).ds = s.ds := hmeter .ds (by simp [arbiters])
  have hrs : (meterNet s).rs = s.rs := hmeter .rs (by simp [arbiters])
  have hcharge := chargeNet_frame (meterNet s)
  refine .intro (t := refreshAttention (chargeNet (meterNet s))) (by simp [exec, execNetRoll, hn, Machine.netRoll])
    ⟨?_, fun hstray => ?_, fun older younger b n hb hst hnet => ?_⟩
  · rw [refreshAttention_ds, chargeNet, hds, hrs]
  · rw [OnlyChanges_refreshAttention]
    rwa [meterNet_stray hstray] at hcharge ⊢
  · obtain ⟨hshort, hdone⟩ := hb.meterNet hst hnet rfl
    refine ⟨fun hlt => ?_, fun hle hd => ?_⟩
    · rw [hshort hlt] at hcharge ⊢
      refine ⟨?_, rfl, ?_⟩
      · exact congrArg State.bt (hb.modifyRecord (fun x => { x with net := some _ }))
      · rw [OnlyChanges_refreshAttention]
        exact ((s.meterChamber_frame _).mono (by simp)).trans (hcharge.mono (by simp))
    · obtain ⟨hbt, hcu, hhands⟩ := hb.completeNetting hst hn hd
        { n with metered := n.metered + s.rs.constants.netStep }
      rw [hdone hle] at hcharge hmeter ⊢
      refine ⟨hbt, hcu, Hands.refresh (hhands.congr rfl rfl), ?_⟩
      rw [OnlyChanges_refreshAttention]
      exact (hmeter.mono (by simp +contextual [or_imp])).trans (hcharge.mono (by simp))

end Sys2Proof.Proofs
end

section
/-! Proofs. NET START and NET ABORT (R76 to R78, R83): the two stage changes, each taken as a request. -/

namespace Sys2Proof.Machine

/-- The chamber record with the net fields of an attempt, the net-catch timer started (R77 steps 1 to 6). -/
def State.startAttempt (s : State) : State :=
  { s.modifyRecord .chamber (fun x => x.withNetStart s.startDiameter s.mf.d.stale) with
    cu := { s.cu with netCatchTimer := .running (s.rs.constants.netCatchTimeout * 100) } }

theorem State.startAttempt_frame (s : State) : OnlyChanges [.bt, .cu] s s.startAttempt :=
  ((State.modifyRecord_frame .chamber _ s).mono (by simp)).trans ((OnlyChanges.of_cu _ _).mono (by simp))

theorem State.startDiameter_eq (s : State) : s.startDiameter = max 900 (min 1800 s.mf.d.value) :=
  clampNat_eq _ _ _ (by omega)

/-- NET START past its checks (R76). -/
theorem cmdNetStart_starts (p : Port) (pl : List Byte) {s : State} {b : Bale} (hb : s.recordIn .chamber = some b)
    (hst : b.stage = .forming) (hs : s.mi.stop.filtered = false) :
    cmdNetStart p pl s = (enterStage .chamber .netting s.startAttempt,
      answer (byte2 b.seq ++ byte2 s.startDiameter ++ byte4 (netFieldsFor b.recipe s.startDiameter).target ++
        byte1 (stepSaturating b.netAttempts 7) ++ flag1 s.mf.d.stale)) := by
  simp only [cmdNetStart, hb, hst, hs]
  rfl

/-- NET START carried out, the taking of the request aside (R77). -/
theorem State.HoldsIn.netStart {s : State} {older younger : List Bale} {b : Bale}
    (h : s.HoldsIn .chamber older b younger) (hn : s.nrstAsserted = false) (hs : s.mi.stop.filtered = false) :
    BalesBecome (older ++ { b with
        net := some (netFieldsFor b.recipe s.startDiameter), netAttempts := stepSaturating b.netAttempts 7
        flags := { b.flags with staleSensor := b.flags.staleSensor || s.mf.d.stale }
        stage := .netting, netStarted := some s.bt.runClock } :: younger) s
      (Machine.enterStage .chamber .netting s.startAttempt) ∧
    (Machine.enterStage .chamber .netting s.startAttempt).cu = { s.cu with
      netCatchTimer := .running (s.rs.constants.netCatchTimeout * 100), baleFull := false
      dvCode := driveCode false s.cu.lockout true s.cu.computedCode } ∧
    Hands (stageSettings .chamber b.seq) s (Machine.enterStage .chamber .netting s.startAttempt) ∧
    OnlyChanges (.bt :: .cu :: arbiters) s (Machine.enterStage .chamber .netting s.startAttempt) := by
  have hattempt : s.startAttempt.HoldsIn .chamber older (b.withNetStart s.startDiameter s.mf.d.stale) younger :=
    (h.modified (fun x => x.withNetStart s.startDiameter s.mf.d.stale) h.2.1).congr rfl
  obtain ⟨hbt, hcu, hhands⟩ := hattempt.enterNet (st := .netting) (.inl rfl)
  refine ⟨?_, ?_, (hhands hn).congr rfl rfl, ?_⟩
  · rw [BalesBecome] at hbt ⊢
    refine hbt.trans ?_
    simp [Bale.toStage, Bale.withNetStart, startNet, netFieldsFor, circumference, netTarget, State.startAttempt]
  · refine hcu.trans ?_
    simp [State.startAttempt, hs]
  · exact (s.startAttempt_frame.mono (by simp)).trans (enterNet_frame (.inl rfl) .chamber _)

/-- NET ABORT past its check (R83). -/
theorem cmdNetAbort_aborts (p : Port) (pl : List Byte) {s : State} {b : Bale} {n : NetFields}
    (hb : s.recordIn .chamber = some b) (hst : b.stage = .netting) (hnet : b.net = some n) :
    cmdNetAbort p pl s = (returnToForming s, answer (byte2 b.seq ++ byte4 n.metered)) := by
  simp [cmdNetAbort, hb, hst, Bale.netOrZero, hnet]

theorem netStart_notReady {s : State} (hn : s.nrstAsserted = false)
    (h : ∀ b, s.recordIn .chamber = some b → b.stage ≠ .forming) :
    Runs (.netStart .a []) s (Refused .a .netStart .notReady s) := by
  refine refused_of (c := .netStart) rfl hn rfl rfl ?_
  cases hb : s.recordIn .chamber with
  | none => simp [ownBlock, cmdNetStart, hb]
  | some b => simp [ownBlock, cmdNetStart, hb, h b hb]

theorem netAbort_notReady {s : State} (hn : s.nrstAsserted = false)
    (h : ∀ b, s.recordIn .chamber = some b → b.stage ≠ .netting) :
    Runs (.netAbort .a []) s (Refused .a .netAbort .notReady s) := by
  refine refused_of (c := .netAbort) rfl hn rfl rfl ?_
  cases hb : s.recordIn .chamber with
  | none => simp [ownBlock, cmdNetAbort, hb]
  | some b => simp [ownBlock, cmdNetAbort, hb, h b hb]

/-- Settles O44: the checks in their order, then each stage change as the taking of the request leaves it. -/
theorem netStartAndAbort : Obligations.NetStartAndAbort := by
  intro s hn
  refine ⟨netStart_notReady hn, netAbort_notReady hn, fun older younger b hb =>
    ⟨fun hst hs => ?_, fun hst hs => ?_, fun hst n hnet => ?_⟩⟩
  · exact refused_of (c := .netStart) rfl hn rfl rfl (by simp [ownBlock, cmdNetStart, hb.recordIn, hst, hs])
  · let u := beforeTake .a Command.netStart.byte s
    have hu : u.HoldsIn .chamber older b younger := hb.beforeTake
    have hus : u.mi.stop.filtered = false := by simpa [u] using hs
    have hud : u.startDiameter = max 900 (min 1800 s.mf.d.value) := by simp [u, State.startDiameter_eq]
    obtain ⟨hbt, hcu, hhands, hframe⟩ := hu.netStart (by simpa [u] using hn) hus
    have hcmd := cmdNetStart_starts .a [] hu.recordIn hst hus
    rw [hud] at hbt hcmd
    refine runs_of (c := .netStart) rfl hn rfl rfl hcmd ⟨?_, ?_, hhands.request rfl, ?_, ?_⟩
    · simpa [u] using hbt.request
    · rw [after_cu, hcu]
      simp [u]
    · simp [Answered, answer, Command.byte, u]
    · exact (request_frame hframe).mono (by simp +contextual [or_imp])
  · let u := beforeTake .a Command.netAbort.byte s
    have hu : u.HoldsIn .chamber older b younger := hb.beforeTake
    obtain ⟨hbt, hcu, hhands, hframe⟩ := hu.returnToForming (by simpa [u] using hn)
    refine runs_of (c := .netAbort) rfl hn rfl rfl (cmdNetAbort_aborts .a [] hu.recordIn hst hnet)
      ⟨?_, ?_, hhands.request rfl, ?_, ?_⟩
    · simpa [u] using hbt.request
    · simpa [u] using hcu.request
    · simp [Answered, answer, Command.byte]
    · exact (request_frame hframe).mono (by simp +contextual [or_imp])

end Sys2Proof.Machine
end

section
/-! Proofs. The density profile (R70, R71), and what CU makes of the P, D and M completions (R65 to R67, R69, R72,
R73). -/

namespace Sys2Proof.Machine

/-! ### The profile and the valve's characteristic (R70, R71) -/

/-- A share of at most the whole of `a`, truncated toward zero, lies between 0 and `a`. -/
theorem tdiv_share {a k r : Int} (hk : 0 ≤ k) (hkr : k ≤ r) (hr : 0 < r) :
    min 0 a ≤ (a * k).tdiv r ∧ (a * k).tdiv r ≤ max 0 a := by
  have hshare : ∀ {c : Int}, 0 ≤ c → 0 ≤ (c * k).tdiv r ∧ (c * k).tdiv r ≤ c := fun {c} hc => by
    have hprod : 0 ≤ c * k := mul_nonneg hc hk
    rw [Int.tdiv_eq_ediv_of_nonneg hprod]
    exact ⟨Int.ediv_nonneg hprod hr.le, Int.ediv_le_of_le_mul hr (mul_le_mul_of_nonneg_left hkr hc)⟩
  rcases le_total 0 a with ha | ha
  · have := hshare ha
    omega
  · have := hshare (c := -a) (by omega)
    rw [Int.neg_mul, Int.neg_tdiv] at this
    omega

theorem setPressure_core {r : Recipe} {d : Nat} (h : d ≤ r.dc) : setPressure r d = r.pc := if_pos h

theorem setPressure_shell {r : Recipe} {d : Nat} (hr : 1 ≤ r.r) (h : r.dc + r.r ≤ d) : setPressure r d = r.ps := by
  rw [setPressure, if_neg (by omega), if_pos h]

/-- In the transition the set pressure is the truncated line, and lies between the two pressures. -/
theorem setPressure_transition {r : Recipe} {d : Nat} (hc : r.dc < d) (hs : d < r.dc + r.r) :
    (setPressure r d : Int) = r.pc + Int.tdiv (((r.ps : Int) - r.pc) * ((d : Int) - r.dc)) r.r ∧
    min r.pc r.ps ≤ setPressure r d ∧ setPressure r d ≤ max r.pc r.ps := by
  have hshare := tdiv_share (a := (r.ps : Int) - r.pc) (k := (d : Int) - r.dc) (r := r.r) (by omega) (by omega)
    (by omega)
  rw [setPressure, if_neg (by omega), if_neg (by omega)]
  omega

/-- Settles O21: the three ranges of the diameter one by one; the valve code by its clamp. -/
theorem densityProfile : Obligations.DensityProfile := by
  intro r k d hr
  refine ⟨setPressure_core, setPressure_shell hr, fun hc hs => (setPressure_transition hc hs).1, ?_, ?_⟩
  · by_cases hcore : d ≤ r.dc
    · rw [setPressure_core hcore]
      omega
    by_cases hshell : r.dc + r.r ≤ d
    · rw [setPressure_shell hr hshell]
      omega
    · exact (setPressure_transition (by omega) (by omega)).2
  · rw [valveCode, clampInt_eq _ _ _ (by omega)]
    omega

/-! ### The hand-off of a completion (R30, Table 2-4) -/

/-- The completion stored, before its consumer hears of it (R30). -/
def State.converted (s : State) (ch : Channel) (raw : Int) : State :=
  s.modifyChannel ch (·.convert (s.rs.chan.get ch) (channelTop ch) raw)

theorem State.converted_frame (s : State) (ch : Channel) (raw : Int) : OnlyChanges [.mf] s (s.converted ch raw) :=
  s.modifyChannel_frame ch _

/-- The value stored is the one the channel shows when the completion is over. -/
theorem conversionCompletion_value {ch : Channel} (raw : Int) {s : State} (hn : s.nrstAsserted = false)
    (h : (s.mf.get ch).convTimer.isRunning = true) :
    ((conversionCompletion ch raw s).mf.get ch).value = ((s.converted ch raw).mf.get ch).value := by
  rw [conversionCompletion_get raw hn h, if_pos rfl, ChannelRecord.evalZero_value, State.converted,
    State.modifyChannel_get, if_pos rfl]

/-- A completion of a running channel: stored, its value handed to its consumer, then the automatic start. -/
theorem conversionCompletion_running {ch : Channel} (raw : Int) {s : State} (hn : s.nrstAsserted = false)
    (h : (s.mf.get ch).convTimer.isRunning = true) :
    conversionCompletion ch raw s =
      (handOff ch ((conversionCompletion ch raw s).mf.get ch).value (s.converted ch raw)).modifyChannel ch
        ChannelRecord.evalZero := by
  rw [conversionCompletion_value raw hn h]
  exact if_neg (by simp [hn, h])

/-! ### P (R65, R67, R73) -/

theorem modifyZone_modifyZone (z : Zone) {f : Bale → Bale} (g : Bale → Bale) (hf : ∀ b, (f b).stage = b.stage)
    (bales : List Bale) : modifyZone z g (modifyZone z f bales) = modifyZone z (g ∘ f) bales := by
  induction bales with
  | nil => rfl
  | cons b bs ih =>
    cases hz : inZone z b with
    | true =>
      have hfz : inZone z (f b) = true := by rw [inZone, hf]; exact hz
      simp [modifyZone, hz, hfz]
    | false => simp [modifyZone, hz, ih]

/-- The lockout after a completion, in both of its states (R67). -/
theorem lockoutAfter_iff (k : Constants) (value : Nat) :
    (lockoutAfter k false value = true ↔ k.opLimit < value) ∧
    (k.opHyst ≤ k.opLimit → (lockoutAfter k true value = false ↔ value + k.opHyst < k.opLimit)) := by
  refine ⟨decide_eq_true_iff, fun _ => decide_eq_false_iff_not.trans ?_⟩
  omega

/-- The chamber record after a P completion: its peak pressure, and OVERPRESSURE_SEEN under the lockout. -/
def Bale.pressed (b : Bale) (value : Nat) (lockout : Bool) : Bale :=
  { b.withPressure value with
    flags := { b.flags with overpressureSeen := b.flags.overpressureSeen || lockout } }

theorem Bale.withPressure_flags (b : Bale) (value : Nat) : (b.withPressure value).flags = b.flags := by
  unfold Bale.withPressure
  split <;> rfl

theorem Bale.pressed_locked (b : Bale) (value : Nat) : b.pressed value true =
    { b.withPressure value with flags := { (b.withPressure value).flags with overpressureSeen := true } } := by
  simp [Bale.pressed, Bale.withPressure_flags]

theorem Bale.pressed_unlocked (b : Bale) (value : Nat) : b.pressed value false = b.withPressure value := by
  simp [Bale.pressed, ← b.withPressure_flags value]

theorem Bale.pressed_stage (b : Bale) (value : Nat) (lockout : Bool) : (b.pressed value lockout).stage = b.stage :=
  (b.withPressure_kept value).1

/-- In the chamber every stage but NETTED follows the peak (R65). -/
theorem Bale.pressed_eq {b : Bale} (hb : b.stage.zone = .chamber) (value : Nat) (lockout : Bool) :
    b.pressed value lockout = { b with
      peakPressure := if b.stage = .netted then b.peakPressure else max b.peakPressure value
      flags := { b.flags with overpressureSeen := b.flags.overpressureSeen || lockout } } := by
  unfold Bale.pressed Bale.withPressure
  cases hst : b.stage <;> simp_all [Stage.zone]

/-- What CU makes of a P completion, at once: the record, the lockout, then the DV code. -/
theorem usePressure_eq (value : Nat) (s : State) :
    usePressure value s = syncDv
      { s.modifyRecord .chamber (·.pressed value (lockoutAfter s.rs.constants s.cu.lockout value)) with
        cu := { s.cu with lockout := lockoutAfter s.rs.constants s.cu.lockout value } } := by
  unfold usePressure
  dsimp only
  cases lockoutAfter s.rs.constants s.cu.lockout value with
  | true =>
    have hzone := modifyZone_modifyZone .chamber
      (fun b => { b with flags := { b.flags with overpressureSeen := true } })
      (fun b => (b.withPressure_kept value).1) s.bt.bales
    have hlocked : (fun b : Bale => { b with flags := { b.flags with overpressureSeen := true } }) ∘
        (Bale.withPressure · value) = (Bale.pressed · value true) := funext (fun b => (b.pressed_locked value).symm)
    rw [hlocked] at hzone
    simp only [if_true, State.flagRecord, State.modifyRecord, hzone]
  | false =>
    have hunlocked : (Bale.withPressure · value) = (Bale.pressed · value false) :=
      funext (fun b => (b.pressed_unlocked value).symm)
    exact congrArg (fun f => syncDv { s.modifyRecord .chamber f with cu := { s.cu with lockout := false } }) hunlocked

theorem usePressure_recordIn (value : Nat) (lockout : Bool) (s : State) :
    ((s.modifyRecord .chamber (·.pressed value lockout)).recordIn .chamber).isSome =
      (s.recordIn .chamber).isSome := by
  rw [State.recordIn_modifyRecord_same s .chamber _ (fun b hb => by
    rw [Bale.pressed_stage]
    exact State.recordIn_zone hb), Option.isSome_map]

theorem usePressure_cu (value : Nat) (s : State) : (usePressure value s).cu = { s.cu with
    lockout := lockoutAfter s.rs.constants s.cu.lockout value
    dvCode := driveCode s.mi.stop.filtered (lockoutAfter s.rs.constants s.cu.lockout value)
      (s.recordIn .chamber).isSome s.cu.computedCode } := by
  rw [usePressure_eq, syncDv_eq, ← usePressure_recordIn value (lockoutAfter s.rs.constants s.cu.lockout value) s]
  rfl

theorem State.HoldsIn.usePressure {s : State} {older younger : List Bale} {b : Bale}
    (h : s.HoldsIn .chamber older b younger) (value : Nat) :
    BalesBecome (older ++ b.pressed value (lockoutAfter s.rs.constants s.cu.lockout value) :: younger) s
      (Machine.usePressure value s) := by
  rw [usePressure_eq]
  exact congrArg State.bt (h.modifyRecord _)

theorem usePressure_empty {s : State} (h : s.recordIn .chamber = none) (value : Nat) :
    OnlyChanges [.cu] s (usePressure value s) := by
  rw [usePressure_eq, State.modifyRecord_none _ h]
  exact .of_cu s _

/-- Settles O19: the lockout by its two cases, the DV code by R73, the record in its place. -/
theorem pressureCompletion : Obligations.PressureCompletion := by
  intro raw s hn hrunning
  have hrun := conversionCompletion_running raw hn (ch := .p) hrunning
  have hcu : (conversionCompletion .p raw s).cu = _ := (congrArg State.cu hrun).trans (usePressure_cu _ _)
  have hlockout : (conversionCompletion .p raw s).cu.lockout =
      lockoutAfter s.rs.constants s.cu.lockout (conversionCompletion .p raw s).mf.p.value :=
    congrArg ChamberUnit.lockout hcu
  refine .intro rfl ?_
  simp only [refreshAttention_cu, refreshAttention_mf, OnlyChanges_refreshAttention, hlockout]
  refine ⟨fun h => ?_, fun h hhyst => ?_, hcu, fun hnone => ?_, fun older younger b hb => ?_⟩
  · rw [h]
    exact (lockoutAfter_iff _ _).1
  · rw [h]
    exact (lockoutAfter_iff _ _).2 hhyst
  · rw [hrun]
    exact ((s.converted_frame .p raw).mono (by simp)).trans
      (((usePressure_empty (s := s.converted .p raw) hnone _).mono (by simp)).trans
        ((State.modifyChannel_frame _ .p _).mono (by simp)))
  · rw [← Bale.pressed_eq hb.2.1]
    exact (congrArg State.bt hrun).trans (State.HoldsIn.usePressure (s := s.converted .p raw) hb _)

/-! ### D and M (R66, R69, R72, R73) -/

/-- CU after a D completion, at once: the computed code, BALE_FULL, the DV code. -/
theorem useDiameter_cu (s : State) : (useDiameter s).cu = { s.cu with
    computedCode := (useDiameter s).cu.computedCode
    dvCode := driveCode s.mi.stop.filtered s.cu.lockout (s.recordIn .chamber).isSome (useDiameter s).cu.computedCode
    baleFull := fullFor (s.recordIn .chamber) s.mf.d.value } := by
  have hcode : (useDiameter s).cu.computedCode = (recomputeCode s).cu.computedCode := rfl
  rw [hcode, useDiameter, syncChamber_eq, recomputeCode_recordIn]
  dsimp only
  rw [recomputeCode_cu]
  simp

theorem useDiameter_frame (s : State) : OnlyChanges [.cu] s (useDiameter s) :=
  (recomputeCode_frame s).trans (syncChamber_frame _)

theorem diameterCompletion_runs (raw : Int) {s : State} (hn : s.nrstAsserted = false)
    (hrunning : s.mf.d.convTimer.isRunning = true) : Runs (.conversionCompletion .d raw) s (fun t =>
      ((∀ b, s.recordIn .chamber = some b → b.stage ≠ .forming) → t.cu.computedCode = s.cu.computedCode) ∧
      (∀ b, s.recordIn .chamber = some b → b.stage = .forming →
        t.cu.computedCode = codeFor s.rs.constants b.recipe t.mf.d.value) ∧
      t.cu = { s.cu with
        computedCode := t.cu.computedCode
        dvCode := driveCode s.mi.stop.filtered s.cu.lockout (s.recordIn .chamber).isSome t.cu.computedCode
        baleFull := fullFor (s.recordIn .chamber) t.mf.d.value } ∧
      OnlyChanges [.mf, .cu] s t) := by
  have hrun := conversionCompletion_running raw hn (ch := .d) hrunning
  have hcu : (conversionCompletion .d raw s).cu = (useDiameter (s.converted .d raw)).cu :=
    (congrArg State.cu hrun).trans rfl
  have hheld : (conversionCompletion .d raw s).mf.d.value = (s.converted .d raw).mf.d.value :=
    conversionCompletion_value raw hn (ch := .d) hrunning
  have hcode : (conversionCompletion .d raw s).cu.computedCode = (recomputeCode (s.converted .d raw)).cu.computedCode :=
    (congrArg ChamberUnit.computedCode hcu).trans rfl
  refine .intro rfl ?_
  simp only [refreshAttention_cu, refreshAttention_mf, OnlyChanges_refreshAttention]
  refine ⟨fun hidle => ?_, fun b hb hst => ?_, ?_, ?_⟩
  · rw [hcode, recomputeCode_not_forming (s := s.converted .d raw) hidle]
    rfl
  · rw [hcode, recomputeCode_forming (s := s.converted .d raw) hb hst, hheld]
    rfl
  · rw [hheld, hcu]
    exact useDiameter_cu (s.converted .d raw)
  · rw [hrun]
    exact ((s.converted_frame .d raw).mono (by simp)).trans
      (((useDiameter_frame _).mono (by simp)).trans ((State.modifyChannel_frame _ .d _).mono (by simp)))

theorem moistureCompletion_runs (raw : Int) {s : State} (hn : s.nrstAsserted = false)
    (hrunning : s.mf.m.convTimer.isRunning = true) : Runs (.conversionCompletion .m raw) s (fun t =>
      ((∀ b, s.recordIn .chamber = some b → b.stage ≠ .forming) → OnlyChanges [.mf] s t) ∧
      ∀ (older younger : List Bale) (b : Bale), s.HoldsIn .chamber older b younger → b.stage = .forming →
        BalesBecome (older ++
          (if b.moistureCount < 65535 then
            { b with moistureSum := b.moistureSum + t.mf.m.value, moistureCount := b.moistureCount + 1 }
          else b) :: younger) s t ∧
        OnlyChanges [.mf, .bt] s t) := by
  have hrun := conversionCompletion_running raw hn (ch := .m) hrunning
  have hframe : ∀ changed, OnlyChanges changed (s.converted .m raw)
      ((s.converted .m raw).modifyRecord .chamber (·.withMoisture (conversionCompletion .m raw s).mf.m.value)) →
      OnlyChanges (.mf :: changed) s (conversionCompletion .m raw s) := fun changed hused => by
    rw [hrun]
    exact ((s.converted_frame .m raw).mono (by simp)).trans
      ((hused.mono (by simp +contextual)).trans ((State.modifyChannel_frame _ .m _).mono (by simp)))
  refine .intro rfl ?_
  simp only [refreshAttention_mf, OnlyChanges_refreshAttention]
  refine ⟨fun hidle => hframe [] ?_, fun older younger b hb hst => ⟨?_, hframe [.bt] (State.modifyRecord_frame _ _ _)⟩⟩
  · rw [State.modifyRecord_id]
    · exact .refl _ _
    · exact fun b hb => if_neg (fun ⟨hst, _⟩ => hidle b hb hst)
  · have hmoist : ∀ value, b.withMoisture value = if b.moistureCount < 65535 then
        { b with moistureSum := b.moistureSum + value, moistureCount := b.moistureCount + 1 } else b := fun value => by
      simp [Bale.withMoisture, hst]
    rw [← hmoist]
    exact (congrArg State.bt hrun).trans
      (congrArg State.bt (State.HoldsIn.modifyRecord (s := s.converted .m raw) hb _))

/-- Settles O20: the hand-off of a D completion to the drive, and of an M completion to the record. -/
theorem diameterAndMoistureCompletion : Obligations.DiameterAndMoistureCompletion :=
  fun raw _ hn => ⟨diameterCompletion_runs raw hn, moistureCompletion_runs raw hn⟩

end Sys2Proof.Machine
end

section
/-! Proofs. The eject request (R88, R90 to R95, R100): the grant from the queue at STOP falling and at FREE TABLE, and
the commands REQUEST EJECT, CANCEL EJECT, HOLD TABLE and FREE TABLE. -/

namespace Sys2Proof.Machine

/-! ### The grant from the queue (R92, R93) -/

/-- A waiting request that nothing holds back is granted when HU evaluates it. -/
theorem State.HoldsIn.evalGrant {s : State} {older younger : List Bale} {b : Bale}
    (h : s.HoldsIn .chamber older b younger) (hz : ZonesFall s) (hn : s.nrstAsserted = false) (hst : b.stage = .netted)
    (hslot : s.hu.ejectSlot = some b.seq) (hres : s.hu.reservation = none) (hhold : s.hu.tableHold = false)
    (hstop : s.mi.stop.filtered = false) :
    BalesBecome (older ++ b.granted s.bt.runClock :: younger) s (Machine.evalGrant s) ∧
    (Machine.evalGrant s).hu = s.hu.granted b.seq s.rs.constants ∧
    (Machine.evalGrant s).cu = { s.cu with dvCode := 0, baleFull := false } ∧
    Hands (stageSettings .table b.seq ++ [⟨.a, .ejectGrant, 0, b.seq⟩]) s (Machine.evalGrant s) ∧
    OnlyChanges (.bt :: .cu :: .hu :: arbiters) s (Machine.evalGrant s) := by
  obtain ⟨hbt, hhu, hcu, hhands, hframe⟩ := h.grantEject true (hz.alone h).2
  rw [evalGrant_of ⟨b, h.recordIn, hst, hslot⟩ hres hhold hstop]
  exact ⟨hbt, hhu, hcu, hhands hn, hframe⟩

/-- With a NETTED record in the chamber STOP's fall brings the DV code in line and restarts the net-catch timer. -/
theorem resumeDrive_cu_netted {s : State} {b : Bale} (hb : s.recordIn .chamber = some b) (hst : b.stage = .netted)
    (hstop : s.mi.stop.filtered = false) : (resumeDrive s).cu = { s.cu with
      dvCode := driveCode false s.cu.lockout true s.cu.computedCode
      netCatchTimer := s.cu.netCatchTimer.resume (s.rs.constants.netCatchTimeout * 100) } := by
  have hkept : recomputeCode s = s := recomputeCode_not_forming (fun c hc => by
    rw [hb, Option.some.injEq] at hc
    simp [← hc, hst])
  rw [resumeDrive_cu hstop, resumeDrive_computedCode, hkept, hb]
  rfl

/-- STOP's fall with a waiting request that nothing else holds back (R100). -/
theorem stopFalling_grants {s : State} {older younger : List Bale} {b : Bale} (hn : s.nrstAsserted = false)
    (hz : ZonesFall s) (hb : s.HoldsIn .chamber older b younger) (hst : b.stage = .netted)
    (hslot : s.hu.ejectSlot = some b.seq) (hres : s.hu.reservation = none) (ht : s.mi.stop.timer.isRunning = true)
    (hp : s.mi.stop.pin = false) (hf : s.mi.stop.filtered = true) (hhold : s.hu.tableHold = false) :
    Runs (.stabilityTimerExpiry .stop) s (fun t =>
      BalesBecome (older ++ b.granted s.bt.runClock :: younger) s t ∧
      t.hu = s.hu.granted b.seq s.rs.constants ∧
      t.cu = { s.cu with
        dvCode := 0, baleFull := false
        netCatchTimer := if s.cu.netCatchTimer = .suspended then .running (s.rs.constants.netCatchTimeout * 100)
          else s.cu.netCatchTimer } ∧
      Hands (stageSettings .table b.seq ++ [⟨.a, .ejectGrant, 0, b.seq⟩]) s t ∧
      OnlyChanges (.mi :: .bt :: .cu :: .hu :: arbiters) s t) := by
  let settled := s.modifyLevel .stop LevelLine.settle
  let u := resumeDrive settled
  have hframe : OnlyChanges [.mi, .cu, .hu] s u :=
    ((s.modifyLevel_frame .stop _).mono (by simp)).trans ((resumeDrive_frame settled).mono (by simp))
  have hbt : u.bt = s.bt := hframe .bt (by simp)
  have hrs : u.rs = s.rs := hframe .rs (by simp)
  have hna : u.na = s.na := PerPort.ext_get (fun p => by simp [u, resumeDrive, settled])
  have hhu : u.hu = { s.hu with transferTimer := s.hu.transferTimer.resume (s.rs.constants.transferTimeout * 1000) } :=
    resumeDrive_hu settled
  have hcu : u.cu = _ := resumeDrive_cu_netted (s := settled) hb.recordIn hst hp
  have hholds : u.HoldsIn .chamber older b younger := hb.congr (by rw [hbt])
  have hfall : ZonesFall u := by unfold ZonesFall at hz ⊢; rwa [hbt]
  have hstop : u.mi.stop.filtered = false := by
    rw [resumeDrive_frame settled .mi (by simp)]
    exact hp
  have hnu : u.nrstAsserted = false := (hframe .nrst (by simp)).trans hn
  obtain ⟨hgrantBt, hgrantHu, hgrantCu, hhands, hgrantFrame⟩ := hholds.evalGrant hfall hnu hst
    (by rw [hhu]; exact hslot) (by rw [hhu]; exact hres) (by rw [hhu]; exact hhold) hstop
  refine .intro (exec_stabilityTimerExpiry (i := .stop) hn ht hp hf) ⟨?_, ?_, ?_, ?_, ?_⟩
  · rwa [BalesBecome, hbt] at hgrantBt
  · rwa [hhu, hrs] at hgrantHu
  · rw [hcu] at hgrantCu
    rw [← Timer.resume_eq]
    exact hgrantCu
  · exact (hhands.congr hna.symm rfl).refresh
  · rw [OnlyChanges_refreshAttention]
    exact (hframe.mono (by simp)).trans (hgrantFrame.mono (by simp +contextual))

/-! ### HOLD TABLE and FREE TABLE (R95) -/

/-- The state with the table hold written. -/
def State.withHold (s : State) (v : Bool) : State := { s with hu := { s.hu with tableHold := v } }

@[simp] theorem State.withHold_nrstAsserted (s : State) (v : Bool) : (s.withHold v).nrstAsserted = s.nrstAsserted := rfl
@[simp] theorem State.withHold_bt (s : State) (v : Bool) : (s.withHold v).bt = s.bt := rfl
@[simp] theorem State.withHold_mi (s : State) (v : Bool) : (s.withHold v).mi = s.mi := rfl
@[simp] theorem State.withHold_rs (s : State) (v : Bool) : (s.withHold v).rs = s.rs := rfl
@[simp] theorem State.withHold_cu (s : State) (v : Bool) : (s.withHold v).cu = s.cu := rfl
@[simp] theorem State.withHold_hu (s : State) (v : Bool) : (s.withHold v).hu = { s.hu with tableHold := v } := rfl
@[simp] theorem State.withHold_recordIn (s : State) (v : Bool) (z : Zone) :
    (s.withHold v).recordIn z = s.recordIn z := rfl

theorem State.withHold_frame (s : State) (v : Bool) : OnlyChanges [.hu] s (s.withHold v) := .of_hu s _

theorem tableAnswer_eq (s : State) : tableAnswer s =
    answer (flag1 s.hu.tableHold ++ byte2 (s.hu.reservation.getD 0) ++ byte2 (s.hu.ejectSlot.getD 0)) := rfl

theorem cmdHoldTable_eq (p : Port) (pl : List Byte) (s : State) :
    cmdHoldTable p pl s = (s.withHold true, tableAnswer (s.withHold true)) := rfl

theorem cmdFreeTable_eq (p : Port) (pl : List Byte) (s : State) :
    cmdFreeTable p pl s = (evalGrant (s.withHold false), tableAnswer (evalGrant (s.withHold false))) := rfl

theorem holdTable_runs {s : State} (hn : s.nrstAsserted = false) : Runs (.holdTable .b []) s (fun t =>
    t.hu = { s.hu with tableHold := true } ∧
    Answered .b .holdTable .ok (flag1 true ++ byte2 (s.hu.reservation.getD 0) ++ byte2 (s.hu.ejectSlot.getD 0)) t ∧
    OnlyChanges [.hu, .link .b] s t) := by
  let u := beforeTake .b Command.holdTable.byte s
  refine runs_of (c := .holdTable) rfl hn rfl rfl (cmdHoldTable_eq .b [] u) ⟨?_, ?_, ?_⟩
  · simp [u]
  · simp [Answered, tableAnswer_eq, u, answer, Command.byte]
  · exact request_frame (u.withHold_frame true)

/-- FREE TABLE with a waiting request that nothing else holds back (R95). -/
theorem freeTable_grants {s : State} {older younger : List Bale} {b : Bale} (hn : s.nrstAsserted = false)
    (hz : ZonesFall s) (hb : s.HoldsIn .chamber older b younger) (hst : b.stage = .netted)
    (hslot : s.hu.ejectSlot = some b.seq) (hres : s.hu.reservation = none) (hstop : s.mi.stop.filtered = false) :
    Runs (.freeTable .b []) s (fun t =>
      BalesBecome (older ++ b.granted s.bt.runClock :: younger) s t ∧
      t.hu = { s.hu.granted b.seq s.rs.constants with tableHold := false } ∧
      t.cu = { s.cu with dvCode := 0, baleFull := false } ∧
      Hands (stageSettings .table b.seq ++ [⟨.a, .ejectGrant, 0, b.seq⟩]) s t ∧
      Answered .b .freeTable .ok (flag1 false ++ byte2 b.seq ++ byte2 0) t ∧
      OnlyChanges (.bt :: .cu :: .hu :: .link .b :: arbiters) s t) := by
  let u := beforeTake .b Command.freeTable.byte s
  have hholds : (u.withHold false).HoldsIn .chamber older b younger := hb.beforeTake
  have hfall : ZonesFall (u.withHold false) := hz.beforeTake
  obtain ⟨hbt, hhu, hcu, hhands, hframe⟩ := hholds.evalGrant hfall (by simpa [u] using hn) hst
    (by simpa [u] using hslot) (by simpa [u] using hres) rfl (by simpa [u] using hstop)
  have hbt' : BalesBecome (older ++ b.granted u.bt.runClock :: younger) u (evalGrant (u.withHold false)) := hbt
  refine runs_of (c := .freeTable) rfl hn rfl rfl (cmdFreeTable_eq .b [] u) ⟨?_, ?_, ?_, ?_, ?_, ?_⟩
  · simpa [u] using hbt'.request
  · rw [after_hu, hhu]
    simp [u, HandoverUnit.granted]
  · rw [after_cu, hcu]
    simp [u]
  · exact Hands.request (hhands.congr (s' := u) rfl rfl) rfl
  · simp only [tableAnswer_eq, hhu]
    simp [Answered, HandoverUnit.granted, answer, Command.byte]
  · exact (request_frame (((u.withHold_frame false).mono (by simp)).trans hframe)).mono
      (by simp +contextual [or_imp])

/-- FREE TABLE with nothing to grant (R95). -/
theorem freeTable_quiet {s : State} (hn : s.nrstAsserted = false)
    (hw : ¬ (s.WaitingRequest ∧ s.hu.reservation = none ∧ s.mi.stop.filtered = false)) :
    Runs (.freeTable .b []) s (fun t =>
      t.hu = { s.hu with tableHold := false } ∧
      Answered .b .freeTable .ok
        (flag1 false ++ byte2 (s.hu.reservation.getD 0) ++ byte2 (s.hu.ejectSlot.getD 0)) t ∧
      OnlyChanges [.hu, .link .b] s t) := by
  let u := beforeTake .b Command.freeTable.byte s
  have hwait : (u.withHold false).WaitingRequest ↔ s.WaitingRequest :=
    State.waitingRequest_congr (by simp [u]) (by simp [u])
  have hquiet : evalGrant (u.withHold false) = u.withHold false :=
    evalGrant_of_not (fun ⟨hwaits, hres, _, hstop⟩ =>
      hw ⟨hwait.mp hwaits, by simpa [u] using hres, by simpa [u] using hstop⟩)
  have hcmd := cmdFreeTable_eq .b [] u
  rw [hquiet] at hcmd
  refine runs_of (c := .freeTable) rfl hn rfl rfl hcmd ⟨?_, ?_, ?_⟩
  · simp [u]
  · simp [Answered, tableAnswer_eq, u, answer, Command.byte]
  · exact request_frame (u.withHold_frame false)

/-- Settles O9: the grant at STOP's fall and at FREE TABLE, each as HU's evaluation of the waiting request. -/
theorem queuedEjectIsGranted : Obligations.QueuedEjectIsGranted :=
  fun _ _ _ _ hn hz hb hst hslot hres =>
    ⟨stopFalling_grants hn hz hb hst hslot hres, freeTable_grants hn hz hb hst hslot hres⟩

/-! ### REQUEST EJECT and CANCEL EJECT (R90, R91, R94) -/

/-- The obstacles' marks: the reservation, the hold and STOP (R91). -/
theorem State.obstacles_eq (s : State) : s.obstacles =
    s.hu.reservation.isSome.toNat + 2 * s.hu.tableHold.toNat + 4 * s.mi.stop.filtered.toNat := by
  simp only [State.obstacles, marks]
  omega

theorem State.HoldsIn.placeRequest {s : State} {older younger : List Bale} {b : Bale}
    (h : s.HoldsIn .chamber older b younger) (q : Nat) :
    BalesBecome (older ++ { b with ejectRequested := true } :: younger) s (Machine.placeRequest q s) :=
  congrArg State.bt (h.modifyRecord (fun x => { x with ejectRequested := true }))

theorem State.HoldsIn.withdrawRequest {s : State} {older younger : List Bale} {b : Bale}
    (h : s.HoldsIn .chamber older b younger) (q : Nat) :
    BalesBecome (older ++ { b with ejectRequested := false } :: younger) s (Machine.withdrawRequest q s) :=
  congrArg State.bt (h.modifyRecord (fun x => { x with ejectRequested := false }))

theorem placeRequest_frame (q : Nat) (s : State) : OnlyChanges [.bt, .hu] s (placeRequest q s) :=
  ((State.modifyRecord_frame .chamber _ s).mono (by simp)).trans ((OnlyChanges.of_hu _ _).mono (by simp))

theorem withdrawRequest_frame (q : Nat) (s : State) : OnlyChanges [.bt, .hu] s (withdrawRequest q s) :=
  ((State.modifyRecord_frame .chamber _ s).mono (by simp)).trans ((OnlyChanges.of_hu _ _).mono (by simp))

/-- In falling zones the NETTED record a command names has its place in the chamber. -/
theorem ZonesFall.holdsIn_netted {s : State} (hz : ZonesFall s) {older younger : List Bale} {b : Bale}
    (hl : s.bt.bales = older ++ b :: younger) (hst : b.stage = .netted) : s.HoldsIn .chamber older b younger :=
  Stage.zone_netted hst ▸ hz.holdsIn hl

theorem nat2_pair (hi lo : Byte) : nat2 [hi, lo] 0 = hi.toNat * 256 + lo.toNat := rfl

section
variable {s : State} {q : Nat} {pl : List Byte} {b : Bale} (p : Port)

/-- The first two checks of REQUEST EJECT and CANCEL EJECT (R90, R94). -/
theorem ejectCommands_unknown (hq : nat2 pl 0 = q) (h : s.recordOf q = none) :
    cmdRequestEject p pl s = (s, refuse .noSuchBale) ∧ cmdCancelEject p pl s = (s, refuse .noSuchBale) := by
  simp [cmdRequestEject, cmdCancelEject, hq, h]

theorem ejectCommands_notNetted (hq : nat2 pl 0 = q) (h : s.recordOf q = some b) (hst : b.stage ≠ .netted) :
    cmdRequestEject p pl s = (s, refuse .notReady) ∧ cmdCancelEject p pl s = (s, refuse .notReady) := by
  simp [cmdRequestEject, cmdCancelEject, hq, h, hst]

theorem cmdRequestEject_grants (hq : nat2 pl 0 = q) (h : s.recordOf q = some b) (hst : b.stage = .netted)
    (ho : s.obstacles = 0) : cmdRequestEject p pl s = (grantEject false s, answer (byte2 b.seq ++ byte1 0)) := by
  simp [cmdRequestEject, hq, h, hst, ho]

theorem cmdRequestEject_queues (hq : nat2 pl 0 = q) (h : s.recordOf q = some b) (hst : b.stage = .netted)
    (ho : s.obstacles ≠ 0) :
    cmdRequestEject p pl s = (placeRequest b.seq s, ⟨.queued, byte2 b.seq ++ byte1 s.obstacles⟩) := by
  simp [cmdRequestEject, hq, h, hst, ho]

theorem cmdCancelEject_withdraws (hq : nat2 pl 0 = q) (h : s.recordOf q = some b) (hst : b.stage = .netted) :
    cmdCancelEject p pl s =
      (withdrawRequest b.seq s, answer (byte2 b.seq ++ flag1 (decide (s.hu.ejectSlot = some b.seq)))) := by
  simp [cmdCancelEject, hq, h, hst]

end

/-- Settles O45: the two refusals, then the grant at once or the request placed, by whether an obstacle stands. -/
theorem requestEject : Obligations.RequestEject := by
  intro hi lo s hn hz
  let u := beforeTake .a Command.requestEject.byte s
  have hu : ∀ {x}, s.recordOf (hi.toNat * 256 + lo.toNat) = x → u.recordOf (hi.toNat * 256 + lo.toNat) = x :=
    fun h => (beforeTake_recordOf _ _ _ _).trans h
  have hobstacles : u.obstacles = s.obstacles := by simp [u, State.obstacles]
  refine ⟨fun hnone => ?_, fun b hb hst => ?_, fun older younger b hb hst hl => ?_⟩
  · exact refused_of (c := .requestEject) rfl hn rfl rfl (ejectCommands_unknown .a (nat2_pair hi lo) (hu hnone)).1
  · exact refused_of (c := .requestEject) rfl hn rfl rfl (ejectCommands_notNetted .a (nat2_pair hi lo) (hu hb) hst).1
  · have hholds : u.HoldsIn .chamber older b younger := (hz.holdsIn_netted hl hst).beforeTake
    refine ⟨fun hres hhold hstop => ?_, fun hobstacle => ?_⟩
    · have hnone : u.obstacles = 0 := hobstacles.trans (s.obstacles_eq_zero.mpr ⟨hres, hhold, hstop⟩)
      obtain ⟨hbt, hhu, hcu, hhands, hframe⟩ := hholds.grantEject false (ZonesFall.alone hz.beforeTake hholds).2
      refine runs_of (c := .requestEject) rfl hn rfl rfl
        (cmdRequestEject_grants .a (nat2_pair hi lo) (hu hb) hst hnone) ⟨?_, ?_, ?_, ?_, ?_, ?_⟩
      · simpa [u] using hbt.request
      · simpa [u] using hhu
      · simpa [u] using hcu
      · exact (hhands (by simpa [u] using hn)).request rfl
      · simp [Answered, answer, Command.byte]
      · exact (request_frame hframe).mono (by simp +contextual [or_imp])
    · have hsome : u.obstacles ≠ 0 := fun h => hobstacle (s.obstacles_eq_zero.mp (hobstacles.symm.trans h))
      refine runs_of (c := .requestEject) rfl hn rfl rfl
        (cmdRequestEject_queues .a (nat2_pair hi lo) (hu hb) hst hsome) ⟨?_, ?_, ?_, ?_⟩
      · exact (hholds.placeRequest b.seq).request
      · simp [placeRequest]
      · simp [Answered, Command.byte, State.obstacles_eq]
      · exact request_frame (placeRequest_frame b.seq u)

/-- Settles O46: the refusals and the withdrawal of CANCEL EJECT, and the hold set and cleared. -/
theorem cancelHoldAndFree : Obligations.CancelHoldAndFree := by
  intro hi lo s hn hz
  let u := beforeTake .a Command.cancelEject.byte s
  have hu : ∀ {x}, s.recordOf (hi.toNat * 256 + lo.toNat) = x → u.recordOf (hi.toNat * 256 + lo.toNat) = x :=
    fun h => (beforeTake_recordOf _ _ _ _).trans h
  refine ⟨fun hnone => ?_, fun b hb hst => ?_, fun older younger b hb hst hl => ?_, holdTable_runs hn,
    freeTable_quiet hn⟩
  · exact refused_of (c := .cancelEject) rfl hn rfl rfl (ejectCommands_unknown .a (nat2_pair hi lo) (hu hnone)).2
  · exact refused_of (c := .cancelEject) rfl hn rfl rfl (ejectCommands_notNetted .a (nat2_pair hi lo) (hu hb) hst).2
  · have hholds : u.HoldsIn .chamber older b younger := (hz.holdsIn_netted hl hst).beforeTake
    refine runs_of (c := .cancelEject) rfl hn rfl rfl
      (cmdCancelEject_withdraws .a (nat2_pair hi lo) (hu hb) hst) ⟨?_, ?_, ?_, ?_⟩
    · exact (hholds.withdrawRequest b.seq).request
    · simp [withdrawRequest]
    · simp [Answered, answer, Command.byte]
    · exact request_frame (withdrawRequest_frame b.seq u)

end Sys2Proof.Machine
end

section
/-! Proofs. TABLE_LOADED rising (R97, R99, R105 to R110): the arrival of the EJECTING record, net-only or to be wrapped,
and the unexpected load. -/

namespace Sys2Proof.Machine

/-! ### A stage change on the table (R13 to R15, R134) -/

theorem clearSilence_frame (s : State) : OnlyChanges [.ds] s (clearSilence s) := by
  intro k hk
  cases k with
  | arbiter p => exact ⟨rfl, rfl, rfl⟩
  | link p => cases p <;> rfl
  | _ => first | rfl | simp at hk

/-- The record in its place, the settings, and an untouched chamber: what a stage change within the TABLE zone does
beside the silence counters. -/
theorem State.HoldsIn.enterTable {s : State} {older younger : List Bale} {b : Bale}
    (h : s.HoldsIn .table older b younger) (hd : DriveInv s) (hn : s.nrstAsserted = false) {st : Stage}
    (hz : st.zone = .table) (he : st ≠ .ejecting) :
    BalesBecome (older ++ b.toStage st s.bt.runClock :: younger) s (Machine.enterStage .table st s) ∧
    Hands (stageSettings .table b.seq) s (Machine.enterStage .table st s) ∧
    OnlyChanges (if st = .wrapping then .bt :: .ds :: arbiters else .bt :: arbiters) s
      (Machine.enterStage .table st s) ∧
    (st = .wrapping → (Machine.enterStage .table st s).ds = (clearSilence s).ds) := by
  let placed : State := { s with bt := { s.bt with bales := older ++ b.toStage st s.bt.runClock :: younger } }
  have hhands : Hands (stageSettings .table b.seq) s (setStageLatches .table b.seq placed) :=
    (Hands.stage .table b.seq (s := placed) hn).congr rfl rfl
  have hframe : OnlyChanges (.bt :: arbiters) s (setStageLatches .table b.seq placed) :=
    ((OnlyChanges.of_bt s _).mono (by simp)).trans ((setStageLatches_frame _ _ placed).mono (by simp +contextual))
  rw [h.enterStage_table hd st hz he]
  by_cases hw : st = .wrapping
  · simp only [if_pos hw]
    exact ⟨rfl, hhands.congr rfl rfl,
      (hframe.mono (by simp +contextual [or_imp])).trans ((clearSilence_frame _).mono (by simp)), fun _ => rfl⟩
  · simp only [if_neg hw]
    exact ⟨rfl, hhands, hframe, fun h => absurd h hw⟩

/-! ### The arrival (R97, R105 to R109) -/

/-- A record as CV takes it over: MOISTURE_UNKNOWN where it has no mean (R106). -/
def Bale.landed (b : Bale) : Bale :=
  { b with flags := { b.flags with moistureUnknown := b.flags.moistureUnknown || b.moistureMean.isNone } }

/-- A landed record with its wrap section, as it enters WRAPPING (R108). -/
def Bale.readied (b : Bale) : Bale :=
  { b.landed with wrap := some (newWrap (layersFor b) (circumference b.netDiameter)) }

theorem Bale.readied_eq {b : Bale} {n : NetFields} (h : b.net = some n) : b.readied = { b.landed with
    wrap := some
      { layerTarget := layersFor b, circ := (n.diameter * 31416 + 500) / 1000, surfacePos := 0,
        layers := List.replicate 64 0, revolutions := 0, lays1 := 0, lays2 := 0, film1 := 0, film2 := 0,
        breaks := [], breakCount := 0 } } := by
  simp only [Bale.readied, newWrap, circumference, Bale.netDiameter, h]

theorem layerTargetOf_eq (b : Bale) : layerTargetOf b.recipe b.moistureMean = layersFor b := by
  unfold layerTargetOf layersFor
  cases b.moistureMean <;> rfl

/-- CV's part of an arrival by the layer target: a net-only bale (R107), or a bale to be wrapped (R108). -/
theorem State.HoldsIn.arriveCoverage {s : State} {older younger : List Bale} {b : Bale}
    (h : s.HoldsIn .table older b younger) :
    (layersFor b = 0 → Machine.arriveCoverage b s =
      setLatch .b .wrapDone 1 b.seq (Machine.enterStage .table .wrapped (s.modifyRecord .table Bale.landed))) ∧
    (layersFor b ≠ 0 → Machine.arriveCoverage b s =
      Machine.enterStage .table .wrapping (s.modifyRecord .table Bale.readied)) := by
  have hflagged : (if b.moistureMean = none then s.flagRecord .table (fun f => { f with moistureUnknown := true })
      else s) = s.modifyRecord .table Bale.landed := by
    cases hm : b.moistureMean with
    | none => simp [State.flagRecord, h.modifyRecord, Bale.landed, hm]
    | some m =>
      refine (if_neg (by simp)).trans (State.modifyRecord_id _ (fun c hc => ?_)).symm
      rw [h.recordIn, Option.some.injEq] at hc
      have hmean : b.moistureMean.isNone = false := by simp [hm]
      rw [← hc, Bale.landed, hmean, Bool.or_false]
  have hlanded : (s.modifyRecord .table Bale.landed).HoldsIn .table older b.landed younger := h.modified _ h.2.1
  unfold Machine.arriveCoverage
  rw [hflagged, layerTargetOf_eq]
  refine ⟨fun ht => if_pos ht, fun ht => (if_neg ht).trans ?_⟩
  rw [hlanded.modifyRecord, h.modifyRecord Bale.landed, h.modifyRecord Bale.readied]
  rfl

/-- HU's part of an arrival (R97). -/
theorem arriveHandover_frame (q : Nat) (s : State) : OnlyChanges [.hu, .arbiter .b] s (arriveHandover q s) :=
  ((OnlyChanges.of_hu s _).mono (by simp)).trans ((setLatch_frame _ _ _ _ _).mono (by simp))

theorem arriveHandover_hands (q : Nat) {s : State} (hn : s.nrstAsserted = false) :
    Hands [⟨.b, .transfer, 0, q⟩] s (arriveHandover q s) :=
  (Hands.one .b .transfer 0 q (s := { s with hu := { s.hu with transferTimer := .stopped } }) hn).congr rfl rfl

/-- A net-only bale (R107): WRAPPED at once, with WRAP_DONE. -/
theorem State.HoldsIn.arriveNetOnly {s : State} {older younger : List Bale} {b : Bale}
    (h : s.HoldsIn .table older b younger) (hst : b.stage = .ejecting) (hd : DriveInv s) (hn : s.nrstAsserted = false)
    (ht : layersFor b = 0) :
    BalesBecome (older ++ { b.landed with
        stage := .wrapped, arrived := some s.bt.runClock, wrapped := some s.bt.runClock } :: younger) s
      (Machine.arriveCoverage b s) ∧
    Hands (stageSettings .table b.seq ++ [⟨.b, .wrapDone, 1, b.seq⟩]) s (Machine.arriveCoverage b s) ∧
    OnlyChanges (.bt :: arbiters) s (Machine.arriveCoverage b s) := by
  have hlanded : (s.modifyRecord .table Bale.landed).HoldsIn .table older b.landed younger := h.modified _ h.2.1
  obtain ⟨hbt, hhands, hframe, -⟩ := hlanded.enterTable
    (hd.modifyRecord hn .table Bale.landed (fun _ => ⟨rfl, rfl⟩)) hn (st := .wrapped) rfl (by decide)
  rw [h.arriveCoverage.1 ht]
  refine ⟨?_, ?_, ?_⟩
  · refine Eq.trans hbt ?_
    simp [Bale.toStage, Bale.landed, hst, State.modifyRecord]
  · exact (hhands.congr (s' := s) rfl rfl).append (Hands.one _ _ _ _ (by simpa using hn))
      (by simp [stageSettings, Setting.apart])
  · exact ((State.modifyRecord_frame .table _ s).mono (by simp)).trans
      (hframe.trans ((setLatch_frame _ _ _ _ _).mono (by simp [arbiters])))

/-- A bale to be wrapped (R108, R134): WRAPPING with a new wrap section, the silence counters at 0. -/
theorem State.HoldsIn.arriveToWrap {s : State} {older younger : List Bale} {b : Bale}
    (h : s.HoldsIn .table older b younger) (hd : DriveInv s) (hn : s.nrstAsserted = false) (ht : layersFor b ≠ 0) :
    BalesBecome (older ++ { b.readied with stage := .wrapping, arrived := some s.bt.runClock } :: younger) s
      (Machine.arriveCoverage b s) ∧
    (Machine.arriveCoverage b s).ds = (clearSilence s).ds ∧
    Hands (stageSettings .table b.seq) s (Machine.arriveCoverage b s) ∧
    OnlyChanges (.bt :: .ds :: arbiters) s (Machine.arriveCoverage b s) := by
  have hreadied : (s.modifyRecord .table Bale.readied).HoldsIn .table older b.readied younger := h.modified _ h.2.1
  obtain ⟨hbt, hhands, hframe, hds⟩ := hreadied.enterTable
    (hd.modifyRecord hn .table Bale.readied (fun _ => ⟨rfl, rfl⟩)) hn (st := .wrapping) rfl (by decide)
  rw [h.arriveCoverage.2 ht]
  refine ⟨?_, hds rfl, hhands.congr rfl rfl, ?_⟩
  · refine Eq.trans hbt ?_
    simp [Bale.toStage, Bale.readied, Bale.landed, State.modifyRecord]
  · exact ((State.modifyRecord_frame .table _ s).mono (by simp)).trans hframe

/-! ### The rise of TABLE_LOADED -/

theorem tableLoadedRising_arrival {s : State} {b : Bale} (hb : s.recordIn .table = some b) (hst : b.stage = .ejecting) :
    tableLoadedRising s = arriveCoverage b (arriveHandover b.seq s) := by
  rw [tableLoadedRising, hb]
  exact if_pos hst

theorem tableLoadedRising_unexpected {s : State} (h : ∀ b, s.recordIn .table = some b → b.stage ≠ .ejecting) :
    tableLoadedRising s = unexpectedLoad s := by
  unfold tableLoadedRising
  split
  next b hb => exact if_neg (h b hb)
  next => rfl

end Sys2Proof.Machine

namespace Sys2Proof.Proofs

open Machine

/-- Settles O10: the arrival, HU's part before CV's, by whether the bale is net-only; then the unexpected load. -/
theorem tableLoadedRising : Obligations.TableLoadedRising := by
  refine ⟨fun s older younger b n hn _ ht hp hf hb hst hnet hd => ?_, fun s hn ht hp hf hno => ?_⟩
  · let settled := s.modifyLevel .tableLoaded LevelLine.settle
    let u := arriveHandover b.seq settled
    have hu : u.HoldsIn .table older b younger := hb
    have hdu : DriveInv u := hd.congr rfl rfl rfl rfl hd.2.2
    have hexec : exec (.stabilityTimerExpiry .tableLoaded) s = .next (refreshAttention (arriveCoverage b u)) := by
      rw [← tableLoadedRising_arrival (s := settled) hb.recordIn hst]
      exact exec_stabilityTimerExpiry (i := .tableLoaded) hn ht hp hf
    have hmark : Hands [⟨.b, .transfer, 0, b.seq⟩] s u :=
      (arriveHandover_hands b.seq (s := settled) hn).congr rfl rfl
    have hframe : OnlyChanges [.mi, .hu, .arbiter .b] s u :=
      ((s.modifyLevel_frame .tableLoaded _).mono (by simp)).trans ((arriveHandover_frame _ settled).mono (by simp))
    have hkept : OnlyChanges (.bt :: .ds :: arbiters) u (arriveCoverage b u) := by
      by_cases hl : layersFor b = 0
      · exact (hu.arriveNetOnly hst hdu hn hl).2.2.mono (by simp +contextual [or_imp])
      · exact (hu.arriveToWrap hdu hn hl).2.2.2
    refine .intro hexec ⟨?_, hkept .hu (by simp [arbiters]), fun hl => ?_, fun hl => ?_⟩
    · rw [refreshAttention_mi, hkept .mi (by simp [arbiters])]
      exact hp
    · obtain ⟨hbt, hds, hhands, hcv⟩ := hu.arriveToWrap hdu hn hl
      have hsilent : (refreshAttention (arriveCoverage b u)).ds = (clearSilence s).ds := hds
      refine ⟨?_, fun k => ?_, ?_, ?_, Hands.refresh ?_, ?_⟩
      · rw [Bale.readied_eq hnet] at hbt
        exact hbt
      · rw [hsilent, clearSilence_film]
      · rw [hsilent]; rfl
      · rw [hsilent]; rfl
      · exact (hmark.append hhands (by simp [stageSettings, Setting.apart])).perm List.perm_append_comm
          (by simp [stageSettings, Setting.apart])
      · rw [OnlyChanges_refreshAttention]
        exact (hframe.mono (by simp [arbiters])).trans (hcv.mono (by simp +contextual [or_imp]))
    · obtain ⟨hbt, hhands, hcv⟩ := hu.arriveNetOnly hst hdu hn hl
      refine ⟨hbt, Hands.refresh ?_, ?_⟩
      · exact (hmark.append hhands (by simp [stageSettings, Setting.apart])).perm
          (List.perm_append_comm_assoc _ _ _) (by simp [stageSettings, Setting.apart])
      · rw [OnlyChanges_refreshAttention]
        exact (hframe.mono (by simp [arbiters])).trans (hcv.mono (by simp +contextual [or_imp]))
  · have hexec := exec_stabilityTimerExpiry (i := .tableLoaded) hn ht hp hf
    rw [levelArrival, if_pos rfl,
      tableLoadedRising_unexpected (s := s.modifyLevel .tableLoaded LevelLine.settle) hno] at hexec
    refine .intro hexec ⟨hp, ?_, ?_⟩
    · exact Hands.refresh ((Hands.one .b .tableUnexpected 0 _ hn).congr rfl rfl)
    · rw [OnlyChanges_refreshAttention]
      exact ((s.modifyLevel_frame .tableLoaded _).mono (by simp)).trans ((setLatch_frame _ _ _ _ _).mono (by simp))

end Sys2Proof.Proofs
end

section
/-! Proofs. The wrap section's ranges (Table 6-1), the net fields that an arrival reads (R77, R109), and the operations
on the records that keep both. -/

namespace Sys2Proof.Machine

/-! ### The wrap section (R103, R111, R116, R137, R142) -/

theorem stepSaturating_le {n top : Nat} (h : n ≤ top) : stepSaturating n top ≤ top := by
  unfold stepSaturating
  split <;> omega

/-- A lay keeps the number of sectors and leaves no count above 31 (R116). -/
theorem addLayer_range (circ pos width : Nat) {layers : List Nat} (h : ∀ n ∈ layers, n ≤ 31) :
    (addLayer circ pos width 0 layers).length = layers.length ∧
      ∀ n ∈ addLayer circ pos width 0 layers, n ≤ 31 := by
  rw [addLayer_eq]
  refine ⟨List.length_mapIdx, fun n hn => ?_⟩
  obtain ⟨i, hi, rfl⟩ := List.mem_mapIdx.mp hn
  have hcount := h _ (List.getElem_mem hi)
  split
  · exact stepSaturating_le hcount
  · exact hcount

/-- A section as the entry to WRAPPING makes it (R108). -/
theorem newWrap_legal {target circ : Nat} (ht : 1 ≤ target ∧ target ≤ 12)
    (hc : 28274 ≤ circ ∧ circ ≤ 56549) : (newWrap target circ).Legal := by
  simp only [WrapSection.Legal, newWrap, List.length_replicate, List.length_nil, List.mem_replicate]
  exact ⟨trivial, fun n hn => by omega, by omega⟩

namespace WrapSection.Legal

variable {w : WrapSection}

theorem lay (h : w.Legal) (k : Dispenser) (width : Nat) : (w.lay k width).Legal := by
  obtain ⟨hlen, hcounts, hcirc, hpos, htarget, hroom, hbreaks, hcount, hrevs, hlays1, hlays2, hfilm1, hfilm2⟩ := h
  obtain ⟨hlen', hcounts'⟩ := addLayer_range w.circ w.surfacePos width hcounts
  cases k with
  | one => exact ⟨hlen'.trans hlen, hcounts', hcirc, hpos, htarget, hroom, hbreaks, hcount, hrevs,
      stepSaturating_le hlays1, hlays2, hfilm1, hfilm2⟩
  | two => exact ⟨hlen'.trans hlen, hcounts', hcirc, hpos, htarget, hroom, hbreaks, hcount, hrevs, hlays1,
      stepSaturating_le hlays2, hfilm1, hfilm2⟩

/-- Whatever a charge takes, the film total fits (R142, log entry 26). -/
theorem addFilm (h : w.Legal) (k : Dispenser) (mm : Nat) : (w.addFilm k mm).Legal := by
  obtain ⟨hlen, hcounts, hcirc, hpos, htarget, hroom, hbreaks, hcount, hrevs, hlays1, hlays2, hfilm1, hfilm2⟩ := h
  cases k with
  | one => exact ⟨hlen, hcounts, hcirc, hpos, htarget, hroom, hbreaks, hcount, hrevs, hlays1, hlays2,
      filmSum_le _ _, hfilm2⟩
  | two => exact ⟨hlen, hcounts, hcirc, hpos, htarget, hroom, hbreaks, hcount, hrevs, hlays1, hlays2, hfilm1,
      filmSum_le _ _⟩

/-- The break list takes six entries at most, and never more than the count has seen (R137). -/
theorem addBreak (h : w.Legal) (k : Dispenser) (clock : Nat) : (w.addBreak k clock).Legal := by
  obtain ⟨hlen, hcounts, hcirc, hpos, htarget, hroom, hbreaks, hcount, hrest⟩ := h
  have hlist : (w.addBreak k clock).breaks.length ≤ 6 ∧
      (w.addBreak k clock).breaks.length ≤ (w.addBreak k clock).breakCount := by
    simp only [WrapSection.addBreak, stepSaturating, apply_ite List.length, List.length_append, List.length_singleton]
    (repeat' split) <;> omega
  exact ⟨hlen, hcounts, hcirc, hpos, htarget, hlist.1, hlist.2, stepSaturating_le hcount, hrest⟩

theorem stepRevolutions (h : w.Legal) : { w with revolutions := stepSaturating w.revolutions 255 }.Legal := by
  obtain ⟨hlen, hcounts, hcirc, hpos, htarget, hroom, hbreaks, hcount, hrevs, hrest⟩ := h
  exact ⟨hlen, hcounts, hcirc, hpos, htarget, hroom, hbreaks, hcount, stepSaturating_le hrevs, hrest⟩

/-- The surface position wraps round at the circumference (R111). -/
theorem roll (h : w.Legal) (distance : Nat) : { w with surfacePos := (w.surfacePos + distance) % w.circ }.Legal := by
  obtain ⟨hlen, hcounts, hcirc, -, hrest⟩ := h
  exact ⟨hlen, hcounts, hcirc, Nat.mod_lt _ (by omega), hrest⟩

end WrapSection.Legal

/-! ### One record -/

/-- What `WrapInv` says of one record. -/
structure Bale.WrapLegal (b : Bale) : Prop where
  wrap : ∀ w, b.wrap = some w → w.Legal
  diameter : ∀ n, b.net = some n → 900 ≤ n.diameter ∧ n.diameter ≤ 1800
  netted : b.stage.netStarted = true → b.net.isSome = true

theorem wrapInv_iff (s : State) : WrapInv s ↔ ∀ b ∈ s.bt.bales, b.WrapLegal :=
  forall₂_congr fun _ _ => ⟨fun ⟨hw, hd, hn⟩ => ⟨hw, hd, hn⟩, fun h => ⟨h.wrap, h.diameter, h.netted⟩⟩

theorem WrapInv.record {s : State} (h : WrapInv s) {z : Zone} {b : Bale} (hb : s.recordIn z = some b) : b.WrapLegal :=
  (wrapInv_iff s).mp h b (State.recordIn_mem hb)

theorem Stage.netStarted_of_table {st : Stage} (h : st.zone = .table) : st.netStarted = true := by
  cases st <;> first | rfl | cases h

namespace Bale.WrapLegal

variable {b c : Bale}

/-- A change of a record that its section, its net fields and its stage do not show. -/
theorem congr (h : b.WrapLegal) (hw : c.wrap = b.wrap) (hn : c.net = b.net) (hs : c.stage = b.stage) :
    c.WrapLegal := ⟨hw ▸ h.wrap, hn ▸ h.diameter, hs ▸ hn ▸ h.netted⟩

/-- A change of a record's wrap section. -/
theorem withWrap (h : b.WrapLegal) {w : Option WrapSection} (hw : ∀ x, w = some x → x.Legal) :
    { b with wrap := w }.WrapLegal := ⟨hw, h.diameter, h.netted⟩

/-- Every stage after FORMING needs the net fields (R6). -/
theorem toStage (h : b.WrapLegal) {st : Stage} (hn : st.netStarted = true → b.net.isSome = true) (clock : Nat) :
    (b.toStage st clock).WrapLegal := ⟨h.wrap, h.diameter, hn⟩

/-- A record on the table has its net fields (R109). -/
theorem net_of_table (h : b.WrapLegal) (hz : b.stage.zone = .table) : b.net.isSome = true :=
  h.netted (Stage.netStarted_of_table hz)

/-- The diameter an arrival reads, and the circumference it makes of it (R109). -/
theorem circumference_range (h : b.WrapLegal) (hz : b.stage.zone = .table) :
    28274 ≤ circumference b.netDiameter ∧ circumference b.netDiameter ≤ 56549 := by
  obtain ⟨n, hn⟩ := Option.isSome_iff_exists.mp (h.net_of_table hz)
  have hd := h.diameter n hn
  have hnet : b.netDiameter = n.diameter := by rw [Bale.netDiameter, hn]
  rw [hnet, circumference]
  omega

end Bale.WrapLegal

/-- Every layer target of a legal recipe is at most 12 (R106). -/
theorem layersFor_le {b : Bale} (h : b.recipe.Legal) : layersFor b ≤ 12 := by
  obtain ⟨-, -, -, -, -, -, -, -, -, hl1, hl2, hl3, -⟩ := h
  unfold layersFor
  (repeat' split) <;> assumption

/-! ### The records of a state -/

/-- The record found in a zone after a change that keeps it there. -/
theorem State.recordIn_modified {s : State} {z : Zone} {b : Bale} (hb : s.recordIn z = some b) {f : Bale → Bale}
    (hf : (f b).stage.zone = z) : (s.modifyRecord z f).recordIn z = some (f b) := by
  obtain ⟨older, younger, hh⟩ := State.holdsIn_of_recordIn hb
  exact (hh.modified f hf).recordIn

namespace WrapInv

variable {s : State}

/-- Nothing but the records counts. -/
theorem still {t : State} (h : WrapInv s) (e : t.bt = s.bt) : WrapInv t := by
  unfold WrapInv
  rwa [e]

/-- Records leave. -/
theorem removed {t : State} (h : WrapInv s) (hsub : t.bt.bales ⊆ s.bt.bales) : WrapInv t :=
  fun b hb => h b (hsub hb)

/-- A record changes in its place. -/
theorem modifyRecord (h : WrapInv s) {z : Zone} {f : Bale → Bale}
    (hf : ∀ b, s.recordIn z = some b → b.WrapLegal → (f b).WrapLegal) : WrapInv (s.modifyRecord z f) := by
  cases hb : s.recordIn z with
  | none => rwa [State.modifyRecord_none f hb]
  | some b =>
    obtain ⟨older, younger, hh⟩ := State.holdsIn_of_recordIn hb
    have hrecord := h.record hb
    rw [wrapInv_iff, hh.1] at h
    rw [wrapInv_iff, hh.modifyRecord]
    simp only [List.forall_mem_append, List.forall_mem_cons] at h ⊢
    obtain ⟨holder, -, hyounger⟩ := h
    exact ⟨holder, hf b hb hrecord, hyounger⟩

theorem flagRecord (h : WrapInv s) (z : Zone) (f : RecordFlags → RecordFlags) : WrapInv (s.flagRecord z f) :=
  h.modifyRecord (fun _ _ hb => hb.congr rfl rfl rfl)

theorem modifyWrap (h : WrapInv s) {f : WrapSection → WrapSection}
    (hf : ∀ w : WrapSection, w.Legal → (f w).Legal) : WrapInv (s.modifyWrap f) := by
  refine h.modifyRecord (fun b _ hb => hb.withWrap (fun x hx => ?_))
  obtain ⟨w, hw, rfl⟩ := Option.map_eq_some_iff.mp hx
  exact hf w (hb.wrap w hw)

/-- A stage change, of a record with net fields where the stage is one after FORMING. -/
theorem enterStage (h : WrapInv s) {z : Zone} {st : Stage}
    (hn : st.netStarted = true → ∀ b, s.recordIn z = some b → b.net.isSome = true) :
    WrapInv (enterStage z st s) := by
  unfold Machine.enterStage
  split
  · have hstaged : WrapInv (s.modifyRecord z (fun x => x.toStage st s.bt.runClock)) :=
      h.modifyRecord (fun b hb hlegal => hlegal.toStage (fun hst => hn hst b hb) _)
    exact hstaged.still (by simp)
  · exact h

/-- A stage change of the record on the table. -/
theorem enterTable (h : WrapInv s) (st : Stage) : WrapInv (Machine.enterStage .table st s) :=
  h.enterStage (fun _ _ hb => (h.record hb).net_of_table (State.recordIn_zone hb))

theorem enterForming (h : WrapInv s) (z : Zone) : WrapInv (Machine.enterStage z .forming s) :=
  h.enterStage (fun e => by cases e)

/-- The grant moves a NETTED record (R92). -/
theorem grantEject (h : WrapInv s) (queued : Bool) (hst : ∀ b, s.recordIn .chamber = some b → b.stage = .netted) :
    WrapInv (grantEject queued s) := by
  unfold Machine.grantEject
  split
  next b hb =>
    have hemptied : WrapInv { s.modifyRecord .chamber (fun x => { x with ejectRequested := false }) with
        hu := { s.hu with ejectSlot := none } } :=
      (h.modifyRecord (z := .chamber) (f := fun x => { x with ejectRequested := false })
        (fun _ _ hb => hb.congr rfl rfl rfl)).still rfl
    have hfound := State.recordIn_modified hb (f := fun x => { x with ejectRequested := false })
      (State.recordIn_zone (b := b) hb)
    have hmoved := hemptied.enterStage (z := .chamber) (st := .ejecting) (fun _ c hc => by
      rw [← Option.some.inj (hfound.symm.trans hc)]
      exact (h.record hb).netted (by rw [hst b hb]; rfl))
    cases queued <;> exact hmoved.still rfl
  next => exact h

theorem evalGrant (h : WrapInv s) : WrapInv (evalGrant s) := by
  unfold Machine.evalGrant
  split
  next hg =>
    obtain ⟨⟨b, hb, hst, -⟩, -⟩ := s.grantable_iff.mp hg
    refine h.grantEject true (fun c hc => ?_)
    rw [hb] at hc
    cases hc
    exact hst
  next => exact h

theorem closeRecord (h : WrapInv s) (z : Zone) (reason : CloseReason) : WrapInv (closeRecord z reason s) := by
  unfold Machine.closeRecord
  split
  next b _ =>
    dsimp only
    generalize hremoved : (if reason = .reset then _ else _ : State) = removed
    have hkept : WrapInv removed := by
      refine h.removed ?_
      rw [← hremoved]
      split <;> exact (removeZone_sublist z s.bt.bales).subset
    cases z with
    | pre => exact hkept
    | chamber => exact hkept.still rfl
    | table =>
      have hfreed : WrapInv { removed with
          hu := { removed.hu with reservation := none, transferTimer := .stopped } } := hkept.still rfl
      unfold closureNeighbours
      dsimp only
      split
      · exact hfreed
      · exact hfreed.evalGrant
  next => exact h

theorem returnToForming (h : WrapInv s) : WrapInv (returnToForming s) :=
  enterForming (s := { s with cu := { s.cu with netCatchTimer := .stopped } }) (h.still rfl) .chamber

/-- A new record is GATHERING or FORMING, with no net fields and no section (R17). -/
theorem createRecord (h : WrapInv s) (slot : Nat) (r : Recipe) {st : Stage} (hst : st.netStarted = false) :
    WrapInv (createRecord slot r st s) := by
  have hbales : (Machine.createRecord slot r st s).bt.bales =
      s.bt.bales ++ [newRecord s.bt.seqCounter slot r st s.bt.runClock] := by
    simp [Machine.createRecord]
  have hnew : (newRecord s.bt.seqCounter slot r st s.bt.runClock).WrapLegal :=
    ⟨by simp [newRecord], by simp [newRecord], by simp [newRecord, hst]⟩
  rw [wrapInv_iff] at h ⊢
  rw [hbales, List.forall_mem_append]
  exact ⟨h, by simpa using hnew⟩

end WrapInv

end Sys2Proof.Machine
end

section
/-! Proofs. Every row keeps the wrap sections in range (R103, R111, R116, R137): the pulses, the level inputs, the
completions and timers, the requests, and the statement. -/

namespace Sys2Proof.Machine

namespace WrapInv

variable {s : State}

/-! ### A lay, a revolution, a silence step -/

theorem chargeFilm (h : WrapInv s) (k : Dispenser) (b : Bale) : WrapInv (chargeFilm k b s) := by
  have hcharged := h.modifyWrap (f := fun w => w.addFilm k ((s.ds.film.get k).taken (s.layCharge k b)))
    (fun w hw => hw.addFilm k _)
  unfold Machine.chargeFilm
  dsimp only
  split
  · exact (hcharged.still (State.modifyDispenser_bt _ _ _)).flagRecord .table _
  · exact hcharged.still (State.modifyDispenser_bt _ _ _)

theorem testCompletion (h : WrapInv s) : WrapInv (testCompletion s) := by
  unfold Machine.testCompletion
  split
  · split
    · exact (h.enterTable .wrapped).still (setLatch_bt _ _ _ _ _)
    · exact h
  · exact h

theorem layPosition (h : WrapInv s) (k : Dispenser) : WrapInv (layPosition k s) := by
  unfold Machine.layPosition
  split
  next b w _ =>
    split
    next =>
      have hlaid := h.modifyWrap (f := fun x => x.lay k (bandWidth s.rs.constants b.recipe w.circ))
        (fun w hw => hw.lay k _)
      have htested := (hlaid.chargeFilm k b).testCompletion
      unfold countedLay
      dsimp only
      split
      · exact htested.still rfl
      · exact htested
    next => exact h
  next => exact h

theorem stepRevolution (h : WrapInv s) : WrapInv (stepRevolution s) := by
  have hturned := h.modifyWrap (fun w hw => hw.stepRevolutions)
  unfold Machine.stepRevolution capWrap
  split
  · split
    · exact ((hturned.flagRecord .table _).enterTable .wrapped).still (setLatch_bt _ _ _ _ _)
    · exact hturned
  · exact hturned

theorem stepSilence (h : WrapInv s) (k : Dispenser) (q : Nat) : WrapInv (stepSilence k q s) := by
  have hstepped : WrapInv (s.modifyDispenser k
      (fun x => { x with silence := stepSaturating x.silence (s.rs.constants.tablePulses / 4) })) := h.still rfl
  rw [stepSilence_eq]
  dsimp only
  split
  · refine still (modifyWrap (hstepped.still (State.modifyDispenser_bt _ k _)) fun w hw => hw.addBreak k _)
      (setLatch_bt _ _ _ _ _)
  · exact hstepped

theorem stepSilences (h : WrapInv s) : WrapInv (stepSilences s) := by
  unfold Machine.stepSilences
  split
  · exact (h.stepSilence .one _).stepSilence .two _
  · exact h

/-! ### Pulses -/

theorem tablePulse (h : WrapInv s) : WrapInv (tablePulse s) := by
  rw [tablePulse_eq]
  dsimp only
  split
  · exact (h.stepSilences.still (State.withAngle_bt _ _)).layPosition .two
  · exact h.stepSilences.still (State.withAngle_bt _ _)

theorem tableIndex (h : WrapInv s) : WrapInv (tableIndex s) := by
  have hlaid := layPosition (s := s.withAngle 0) (h.still rfl) .one
  unfold Machine.tableIndex
  dsimp only
  split
  · exact hlaid.stepRevolution
  · exact hlaid

theorem baleRoll (h : WrapInv s) : WrapInv (baleRoll s) := by
  unfold Machine.baleRoll
  split
  · exact h.modifyWrap (fun w hw => hw.roll _)
  · exact h

theorem meterChamber (h : WrapInv s) {n : NetFields} (hd : 900 ≤ n.diameter ∧ n.diameter ≤ 1800) :
    WrapInv (s.meterChamber n) :=
  still (h.modifyRecord (z := .chamber) (f := fun x => { x with net := some n })
    (fun _ _ hc => ⟨hc.wrap, fun _ hm => Option.some.inj hm ▸ hd, fun _ => rfl⟩)) rfl

/-- The metered record has its net fields, so it may enter NETTED (R80). -/
theorem completeNetting (h : WrapInv s) {c : Bale} (hc : s.recordIn .chamber = some c) (hn : c.net.isSome = true)
    (b : Bale) (n : NetFields) : WrapInv (completeNetting b n s) := by
  have hturns := h.modifyRecord (z := .chamber) (f := fun x => { x with netTurns := some (netTurnsOf b.recipe n) })
    (fun _ _ hx => hx.congr rfl rfl rfl)
  have hfound := State.recordIn_modified hc (f := fun x => { x with netTurns := some (netTurnsOf b.recipe n) })
    (State.recordIn_zone (b := c) hc)
  refine still (hturns.enterStage (st := .netted) (fun _ x hx => ?_)) (setLatch_bt _ _ _ _ _)
  rw [← Option.some.inj (hfound.symm.trans hx)]
  exact hn

/-- A metering pulse counts net and leaves the diameter (R79). -/
theorem netRoll (h : WrapInv s) : WrapInv (netRoll s) := by
  suffices hmetered : WrapInv (meterNet s) from hmetered.still rfl
  rcases meterNet_cases s with ⟨-, he⟩ | ⟨b, n, n', hb, -, hnet, hn', hmeter⟩
  · rwa [he]
  have hcounted := h.meterChamber (n := n') (by rw [hn']; exact (h.record hb).diameter n hnet)
  rcases hmeter with ⟨-, he⟩ | ⟨-, he⟩ <;> rw [he]
  · exact hcounted
  · exact hcounted.completeNetting (c := { b with net := some n' })
      (State.recordIn_modified hb (State.recordIn_zone (b := b) hb)) rfl b n'

/-! ### Level inputs -/

theorem stopRising (h : WrapInv s) : WrapInv (stopRising s) := by
  have hseen : WrapInv (flagStopSeen s) := by
    rw [wrapInv_iff] at h ⊢
    intro c hc
    obtain ⟨b, hb, rfl⟩ := List.mem_map.mp hc
    exact (h b hb).congr rfl rfl rfl
  exact hseen.still rfl

theorem stopFalling (h : WrapInv s) : WrapInv (stopFalling s) := by
  rw [stopFalling_eq]
  exact evalGrant (h.still (resumeDrive_frame s .bt (by simp)))

/-- An arrival: the section starts with a layer target within the recipe's and the circumference of a diameter within
its range, both of a record that has its net fields (R106 to R109). -/
theorem arriveCoverage (h : WrapInv s) {b : Bale} (hb : s.recordIn .table = some b) (hr : b.recipe.Legal) :
    WrapInv (arriveCoverage b s) := by
  obtain ⟨older, younger, hh⟩ := State.holdsIn_of_recordIn hb
  by_cases ht : layersFor b = 0
  · rw [hh.arriveCoverage.1 ht]
    have hlanded := h.modifyRecord (z := .table) (f := Bale.landed) (fun _ _ hc => hc.congr rfl rfl rfl)
    exact (hlanded.enterTable .wrapped).still (setLatch_bt _ _ _ _ _)
  · have hwrap : (newWrap (layersFor b) (circumference b.netDiameter)).Legal :=
      newWrap_legal ⟨Nat.pos_of_ne_zero ht, layersFor_le hr⟩ ((h.record hb).circumference_range hh.2.1)
    rw [hh.arriveCoverage.2 ht]
    refine (h.modifyRecord (fun c hc hlegal => ?_)).enterTable .wrapping
    rw [hb] at hc
    cases hc
    exact ⟨fun w hw => Option.some.inj hw ▸ hwrap, hlegal.diameter, hlegal.netted⟩

theorem tableLoadedRising (h : WrapInv s) (hr : RecipeInv s) : WrapInv (tableLoadedRising s) := by
  obtain ⟨-, -, hsnap, -⟩ := hr
  unfold Machine.tableLoadedRising
  split
  next b hb =>
    split
    · exact arriveCoverage (s := arriveHandover b.seq s) (h.still rfl) hb (hsnap b (State.recordIn_mem hb))
    · exact h.still rfl
  next => exact h.still rfl

theorem tableLoadedFalling (h : WrapInv s) : WrapInv (tableLoadedFalling s) := by
  unfold Machine.tableLoadedFalling
  split
  · split
    · exact h.closeRecord .table _
    · exact (h.flagRecord .table _).closeRecord .table _
    · exact h.closeRecord .table _
    · exact h
  · exact h

theorem stabilityExpiry (h : WrapInv s) (hr : RecipeInv s) (i : LevelInput) : WrapInv (stabilityExpiry i s) := by
  have hsettled : WrapInv (s.modifyLevel i LevelLine.settle) := h.still (State.modifyLevel_bt _ _ _)
  have hrecipes := hr.keeps (s.modifyLevel_keeps i LevelLine.settle)
  unfold Machine.stabilityExpiry levelArrival
  dsimp only
  split
  · exact h
  split
  · exact hsettled
  split
  · split
    · exact hsettled.stopRising
    · exact hsettled.stopFalling
  · exact hsettled
  · split
    · exact hsettled.tableLoadedRising hrecipes
    · exact hsettled.tableLoadedFalling

/-! ### Completions and timers -/

theorem handOff (h : WrapInv s) (ch : Channel) (value : Nat) : WrapInv (handOff ch value s) := by
  cases ch with
  | p =>
    have hpeaked : WrapInv (s.modifyRecord .chamber (·.withPressure value)) :=
      h.modifyRecord (fun b _ hb => by
        unfold Bale.withPressure
        split
        · exact hb.congr rfl rfl rfl
        · exact hb)
    refine still ?_ (syncDv_bt _)
    dsimp only
    split
    · refine flagRecord ?_ .chamber _
      exact hpeaked.still rfl
    · exact hpeaked.still rfl
  | d => exact h.still (useDiameter_frame s .bt (by simp))
  | m =>
    exact h.modifyRecord (fun b _ hb => by
      unfold Bale.withMoisture
      split
      · exact hb.congr rfl rfl rfl
      · exact hb)

theorem conversionCompletion (h : WrapInv s) (ch : Channel) (raw : Int) : WrapInv (conversionCompletion ch raw s) := by
  unfold Machine.conversionCompletion
  split
  · exact h
  · have hstored : WrapInv (s.modifyChannel ch (·.convert (s.rs.chan.get ch) (channelTop ch) raw)) := h.still rfl
    exact (hstored.handOff ch _).still (State.modifyChannel_bt _ _ _)

theorem netCatchExpiry (h : WrapInv s) : WrapInv (netCatchExpiry s) := by
  unfold Machine.netCatchExpiry
  split
  · split
    · exact h.returnToForming.still rfl
    · exact h
  · exact h

theorem transferExpiry (h : WrapInv s) : WrapInv (transferExpiry s) := by
  unfold Machine.transferExpiry
  split
  · split
    · have hfailed : WrapInv (failTransfer s) :=
        flagRecord (s := { s with hu := { s.hu with transferTimer := .stopped } }) (h.still rfl) .table _
      exact hfailed.still rfl
    · exact h
  · exact h

end WrapInv

theorem zeroDueExpiry_bt (ch : Channel) (s : State) : (zeroDueExpiry ch s).bt = s.bt := by
  unfold zeroDueExpiry
  (repeat' split) <;> rfl

theorem autoZeroCompletion_bt (ch : Channel) (s : State) : (autoZeroCompletion ch s).bt = s.bt := by
  unfold autoZeroCompletion
  split <;> rfl

/-! ### Requests -/

theorem acknowledge_bt (p : Port) (src : Source) (i : Fin 4) (s : State) : (acknowledge p src i s).1.bt = s.bt := by
  unfold acknowledge
  dsimp only
  split <;> rfl

theorem readBaleImage_bt (p : Port) (found : Option Bale) (s : State) : (readBaleImage p found s).1.bt = s.bt := by
  cases found with
  | none => rfl
  | some b => exact State.setImage_bt s p _

theorem cmdSetMachine_bt (p : Port) (pl : List Byte) (s : State) : (cmdSetMachine p pl s).1.bt = s.bt := by
  have hchannel : ∀ ch group, (setChannelGroup ch group pl s).1.bt = s.bt := fun ch group => by
    unfold setChannelGroup
    dsimp only
    split <;> rfl
  unfold cmdSetMachine
  dsimp only
  (repeat' split) <;> first | rfl | exact hchannel _ _ | exact applyConstants_frame _ s .bt (by simp)

/-- The commands that reach no record leave the bale table as it is. -/
theorem ownBlock_bt (c : Command) (p : Port) (pl : List Byte) (s : State) (hc : c.reachesDrive = false) :
    (ownBlock c p pl s).1.bt = s.bt := by
  cases c with
  | openBale | dumpPrechamber | netStart | netAbort | requestEject | cancelEject | discardBale | tip | abandonWrap
  | freeTable => cases hc
  | identify | readStatus | takeNotice | setNoticePlan | readStock | holdTable => rfl
  | setMachine => exact cmdSetMachine_bt p pl s
  | portReset => cases p <;> rfl
  | ackNotice => simp only [ownBlock, cmdAckNotice]; split <;> simp [acknowledge_bt]
  | ackCurrent => simp only [ownBlock, cmdAckCurrent]; split <;> simp [acknowledge_bt]
  | readBale => simp only [ownBlock, cmdReadBale]; (repeat' split) <;> simp [readBaleImage_bt]
  | readNext => simp only [ownBlock, cmdReadNext]; (repeat' split) <;> simp
  | readLinkStats => simp only [ownBlock, cmdReadLinkStats]; (repeat' split) <;> simp
  | readChannel => simp only [ownBlock, cmdReadChannel]; split <;> rfl
  | holdZero => simp only [ownBlock, cmdHoldZero]; split <;> rfl
  | releaseZero => simp only [ownBlock, cmdReleaseZero]; split <;> rfl
  | prezero => simp only [ownBlock, cmdPrezero]; (repeat' split) <;> rfl
  | restoreDispenser => simp only [ownBlock, cmdRestoreDispenser]; (repeat' split) <;> rfl
  | withdrawDispenser => simp only [ownBlock, cmdWithdrawDispenser]; split <;> rfl
  | loadRecipe => simp only [ownBlock, cmdLoadRecipe]; split <;> rfl
  | readRecipe => simp only [ownBlock, cmdReadRecipe, takeImage]; split <;> simp
  | readMachine => simp only [ownBlock, cmdReadMachine]; (repeat' split) <;> rfl
  | newRoll => simp only [ownBlock, cmdNewRoll]; (repeat' split) <;> rfl
  | fetchReport => simp only [ownBlock, cmdFetchReport, takeImage]; split <;> simp
  | releaseReport => simp only [ownBlock, cmdReleaseReport]; (repeat' split) <;> rfl
  | queueStatus => simp only [ownBlock, cmdQueueStatus]; split <;> rfl

namespace WrapInv

variable {s : State}

/-- The attempt's net fields have a clamped diameter, and the stage change comes after them (R77). -/
theorem cmdNetStart (h : WrapInv s) (p : Port) (pl : List Byte) : WrapInv (cmdNetStart p pl s).1 := by
  have hattempt : WrapInv s.startAttempt := by
    refine still (h.modifyRecord (z := .chamber) (f := fun x => x.withNetStart s.startDiameter s.mf.d.stale)
      (fun c _ hc => ⟨hc.wrap, fun n hn => ?_, fun _ => rfl⟩)) rfl
    cases hn
    exact clampNat_range _ _ _ (by decide)
  unfold Machine.cmdNetStart
  split
  · exact h
  next b hb =>
    split
    · exact h
    split
    · exact h
    · refine hattempt.enterStage (z := .chamber) (st := .netting) (fun _ c hc => ?_)
      have hstarted : s.startAttempt.recordIn .chamber = some (b.withNetStart s.startDiameter s.mf.d.stale) :=
        State.recordIn_modified hb (State.recordIn_zone (b := b) hb)
      rw [← Option.some.inj (hstarted.symm.trans hc)]
      rfl

/-- In falling zones the NETTED record a command names is the one its grant moves (R90, R91). -/
theorem cmdRequestEject (h : WrapInv s) (hz : ZonesFall s) (p : Port) (pl : List Byte) :
    WrapInv (cmdRequestEject p pl s).1 := by
  unfold Machine.cmdRequestEject
  split
  · exact h
  next b hb =>
    split
    · exact h
    next hst =>
      have hst : b.stage = .netted := by simpa using hst
      split
      · refine h.grantEject false (fun c hc => ?_)
        rw [hz.recordIn_of_netted hb hst] at hc
        cases hc
        exact hst
      · exact still (h.modifyRecord (z := .chamber) (f := fun b => { b with ejectRequested := true })
          (fun _ _ hc => hc.congr rfl rfl rfl)) rfl

theorem cmdCancelEject (h : WrapInv s) (p : Port) (pl : List Byte) : WrapInv (cmdCancelEject p pl s).1 := by
  unfold Machine.cmdCancelEject
  split
  · exact h
  split
  · exact h
  · exact still (h.modifyRecord (z := .chamber) (f := fun b => { b with ejectRequested := false })
      (fun _ _ hc => hc.congr rfl rfl rfl)) rfl

theorem ownBlock (h : WrapInv s) (hz : ZonesFall s) (c : Command) (p : Port) (pl : List Byte) :
    WrapInv (ownBlock c p pl s).1 := by
  cases hc : c.reachesDrive with
  | false => exact h.still (ownBlock_bt c p pl s hc)
  | true =>
    cases c with
    | openBale =>
      have hst : s.openingStage.netStarted = false := by
        rcases openingStage_cases s with hst | ⟨hst, -⟩ <;> rw [hst] <;> rfl
      simp only [Machine.ownBlock, cmdOpenBale]
      (repeat' split) <;> first | exact h | exact h.createRecord _ _ hst
    | dumpPrechamber =>
      simp only [Machine.ownBlock, cmdDumpPrechamber]
      (repeat' split) <;> first | exact h | exact h.enterForming .pre
    | netStart => exact h.cmdNetStart p pl
    | netAbort =>
      simp only [Machine.ownBlock, cmdNetAbort]
      (repeat' split) <;> first | exact h | exact h.returnToForming
    | requestEject => exact h.cmdRequestEject hz p pl
    | cancelEject => exact h.cmdCancelEject p pl
    | discardBale =>
      simp only [Machine.ownBlock, cmdDiscardBale]
      (repeat' split) <;> first | exact h | exact h.closeRecord _ _
    | tip =>
      simp only [Machine.ownBlock, cmdTip]
      (repeat' split) <;> first
        | exact h
        | exact h.enterTable .tipping
        | exact (h.flagRecord .table _).enterTable .tipping
    | abandonWrap =>
      simp only [Machine.ownBlock, cmdAbandonWrap]
      split
      · exact h
      · exact (h.flagRecord .table _).enterTable .wrapped
    | freeTable => exact evalGrant (s := { s with hu := { s.hu with tableHold := false } }) (h.still rfl)
    | _ => cases hc

/-! ### Every row -/

theorem refresh (h : WrapInv s) : WrapInv (refreshAttention s) := h.still (refreshAttention_bt s)

/-- A row that leaves the state as it is under a condition. -/
theorem ite {t : State} {c : Prop} [Decidable c] (h : WrapInv s) (ht : WrapInv t) : WrapInv (if c then s else t) := by
  split
  · exact h
  · exact ht

end WrapInv

theorem HandoverInv.still {s t : State} (h : HandoverInv s) (e : t.ledger = s.ledger) : HandoverInv t := by
  rw [handoverInv_iff] at h ⊢
  rwa [e]

theorem OnlyChanges.ledger {s t : State} (h : OnlyChanges linkBlocks s t) : t.ledger = s.ledger :=
  State.ledger_congr (h .bt (by simp [linkBlocks, arbiters])) (h .hu (by simp [linkBlocks, arbiters]))
    (congrArg ChamberUnit.netCatchTimer (h .cu (by simp [linkBlocks, arbiters])))
    (h .mi (by simp [linkBlocks, arbiters])) (h .nrst (by simp [linkBlocks, arbiters]))

/-- The handover goes along, because a granted record has to be the NETTED one the command names. -/
theorem wrapInv_keptByRequests : KeptByRequests (fun s => HandoverInv s ∧ WrapInv s) := by
  refine .of_ownBlock
    (fun hframe ⟨hh, hw⟩ => ⟨hh.still hframe.ledger, hw.still (hframe .bt (by simp [linkBlocks, arbiters]))⟩)
    (fun c p pl s hn ⟨hh, hw⟩ => ⟨?_, hw.ownBlock hh.1 c p pl⟩)
  have hz := hh.1
  rw [handoverInv_iff] at hh ⊢
  exact (ownBlock_leads c p pl hn hz).keeps (fun _ _ hm => hm.handover) hh

theorem WrapInv.of_empty {s : State} (h : s.bt.bales = []) : WrapInv s := by
  intro b hb
  rw [h] at hb
  cases hb

theorem exec_wrap (i : Instr) {s t : State} (hr : RecipeInv s) (hh : HandoverInv s) (h : WrapInv s)
    (he : exec i s = .next t) : WrapInv t := by
  cases hi : onLinks i with
  | true => exact (wrapInv_keptByRequests.exec hi ⟨hh, h⟩ he).2
  | false =>
    cases i with
    | powerOnReset straps => cases he; exact .of_empty rfl
    | pinResetAssertion =>
      obtain ⟨hbt, -⟩ := closeAll_reset s
      cases he
      exact .of_empty (congrArg BaleTable.bales hbt)
    | pinResetRelease straps =>
      cases he
      split
      · exact h.still rfl
      · exact h.refresh
    | runClockTick => cases he; exact h
    | pdmOutputSlot => cases he; exact h.still rfl
    | levelPinChange input asserted => cases he; exact h.still (State.modifyLevel_bt _ _ _)
    | stabilityTimerExpiry input => cases he; exact (h.stabilityExpiry hr input).refresh
    | tablePulse => cases he; exact (h.ite h.tablePulse).refresh
    | tableIndex => cases he; exact (h.ite h.tableIndex).refresh
    | baleRoll => cases he; exact (h.ite h.baleRoll).refresh
    | netRoll => cases he; exact (h.ite h.netRoll).refresh
    | filmPulse k => cases he; exact (h.ite (h.still (t := filmPulse k s) rfl)).refresh
    | conversionCompletion ch raw => cases he; exact (h.conversionCompletion ch raw).refresh
    | zeroDueExpiry ch => cases he; exact (h.still (zeroDueExpiry_bt ch s)).refresh
    | autoZeroCompletion ch => cases he; exact (h.still (autoZeroCompletion_bt ch s)).refresh
    | netCatchExpiry => cases he; exact h.netCatchExpiry.refresh
    | transferTimerExpiry => cases he; exact h.transferExpiry.refresh
    | _ => cases hi

/-- Settles O60: an arrival starts the section in range, of a record whose net fields and recipe are; every lay, roll,
revolution and break keeps it there, and a record has its net fields before it leaves FORMING. -/
theorem wrapSectionsStayInRange : Obligations.WrapSectionsStayInRange := by
  rintro s t ⟨hr, hh, hw⟩ hstep
  unfold step at hstep
  split at hstep
  · cases hstep; exact hw
  next c rest _ => exact exec_wrap c (s := { s with pending := rest }) hr (hh.still rfl) hw hstep

end Sys2Proof.Machine
end

section
/-! Proofs. A bale-roller pulse (R111), and the map of a wrap: where the sectors' centres lie (R115), and which counts a
lay raises (R116). -/

namespace Sys2Proof.Machine

/-! ### A bale-roller pulse (R111) -/

theorem baleRoll_unwrapping {s : State} (h : s.wrapping = none) : baleRoll s = s := by
  rw [baleRoll, h]

/-- The WRAPPING record rolls in its place. -/
theorem State.HoldsIn.baleRoll {s : State} {older younger : List Bale} {b : Bale} {w : WrapSection}
    (h : s.HoldsIn .table older b younger) (hs : b.stage = .wrapping) (hw : b.wrap = some w) :
    BalesBecome (older ++ { b with wrap := some { w with
      surfacePos := (w.surfacePos + s.rs.constants.rollStep) % w.circ } } :: younger) s (Machine.baleRoll s) := by
  rw [Machine.baleRoll, h.wrapping hs hw]
  exact congrArg State.bt (h.modifyWrap hw _)

theorem baleRoll_frame (s : State) : OnlyChanges [.bt] s (baleRoll s) := by
  unfold baleRoll
  split
  · exact State.modifyRecord_frame _ _ s
  · exact .refl _ _

/-! ### The centres of the sectors (R115) -/

/-- The next centre lies a sixty-fourth of the circumference further on, before both are rounded down. -/
theorem sectorCentre_spacing (circ k : Nat) : sectorCentre circ k + circ / 64 ≤ sectorCentre circ (k + 1) ∧
    sectorCentre circ (k + 1) ≤ sectorCentre circ k + circ / 64 + 1 := by
  have hnext : (2 * (k + 1) + 1) * circ = (2 * k + 1) * circ + 2 * circ := by ring
  unfold sectorCentre
  rw [hnext]
  omega

theorem sectorCentre_lt {circ k : Nat} (hc : 0 < circ) (hk : k < 64) : sectorCentre circ k < circ := by
  have hbelow : (2 * k + 1) * circ < 128 * circ := Nat.mul_lt_mul_of_pos_right (by omega) hc
  exact Nat.div_lt_of_lt_mul hbelow

/-! ### The counts of a lay (R116) -/

theorem stepSaturating_eq_min {n top : Nat} (h : n ≤ top) : stepSaturating n top = min top (n + 1) := by
  unfold stepSaturating
  split <;> omega

/-- The count of one sector after a lay. -/
theorem getElem?_addLayer {circ pos width k n : Nat} {layers : List Nat} (h : layers[k]? = some n) :
    (addLayer circ pos width 0 layers)[k]? = some (if covers circ pos width k then stepSaturating n 31 else n) := by
  rw [addLayer_eq, List.getElem?_mapIdx, h]
  simp

end Sys2Proof.Machine

namespace Sys2Proof.Proofs

open Machine

/-- Settles O14: the WRAPPING record rolls in its place; with none the pulse finds nothing to move. -/
theorem baleRoll : Obligations.BaleRoll := by
  intro s hn
  have hrun : exec .baleRoll s = .next (refreshAttention (Machine.baleRoll s)) := by
    simp [exec, execBaleRoll, hn]
  refine .intro hrun ⟨fun hw => ?_, fun older younger b w hh hs hw => ⟨hh.baleRoll hs hw, Nat.mod_lt _, ?_⟩⟩
  · rw [baleRoll_unwrapping hw, OnlyChanges_refreshAttention]
    exact .refl _ _
  · rw [OnlyChanges_refreshAttention]
    exact baleRoll_frame s

/-- Settles O17: the centres by their spacing and range, and a sector's count by whether the band covers its centre. -/
theorem sectorsAndLayers : Obligations.SectorsAndLayers := by
  refine ⟨fun circ k _ => sectorCentre_spacing circ k, fun circ k => sectorCentre_lt, fun _ _ => rfl,
    fun circ hc => by omega, fun circ pos w layers k n hk hn => ?_⟩
  rw [getElem?_addLayer hk, stepSaturating_eq_min hn]
  simp [covers, sectorCentre]

end Sys2Proof.Proofs
end

section
/-! Proofs. TIP (R125, R126) and ABANDON WRAP (R124): their checks, and a stage change on the table that flags the
record first. -/

namespace Sys2Proof.Machine

/-! ### The checks and the carrying out -/

section
variable {s : State} {b : Bale} {f : Byte} (p : Port)

theorem cmdTip_badValue (hf : 1 < f.toNat) : cmdTip p [f] s = (s, refuse .badValue) := if_pos hf

/-- The table record is none that TIP may move (R125). -/
theorem cmdTip_notReady (hf : f.toNat ≤ 1)
    (h : ∀ b, s.recordIn .table = some b → b.stage ≠ .wrapped ∧ ¬ (b.stage = .wrapping ∧ f.toNat = 1)) :
    cmdTip p [f] s = (s, refuse .notReady) := by
  refine (if_neg (Nat.not_lt.mpr hf)).trans ?_
  cases hb : s.recordIn .table with
  | none => rfl
  | some b =>
    obtain ⟨hwrapped, hforced⟩ := h b hb
    exact (if_neg hwrapped).trans (if_neg hforced)

theorem cmdTip_wrapped (hf : f.toNat ≤ 1) (hb : s.recordIn .table = some b) (hst : b.stage = .wrapped) :
    cmdTip p [f] s = if s.mi.stop.filtered then (s, refuse .stopped)
      else (enterStage .table .tipping s, answer (byte2 b.seq ++ flag1 false)) := by
  refine (if_neg (Nat.not_lt.mpr hf)).trans ?_
  rw [hb]
  exact if_pos hst

theorem cmdTip_forced (hf : f.toNat = 1) (hb : s.recordIn .table = some b) (hst : b.stage = .wrapping) :
    cmdTip p [f] s = if s.mi.stop.filtered then (s, refuse .stopped)
      else (enterStage .table .tipping (flagForcedTip s), answer (byte2 b.seq ++ flag1 true)) := by
  refine (if_neg (Nat.not_lt.mpr (Nat.le_of_eq hf))).trans ?_
  rw [hb]
  exact (if_neg (by simp [hst])).trans (if_pos ⟨hst, hf⟩)

theorem cmdAbandonWrap_notReady (pl : List Byte) (h : s.wrapping = none) :
    cmdAbandonWrap p pl s = (s, refuse .notReady) := by
  rw [cmdAbandonWrap, h]

theorem cmdAbandonWrap_abandons {w : WrapSection} (pl : List Byte) (h : s.wrapping = some (b, w)) :
    cmdAbandonWrap p pl s =
      (enterStage .table .wrapped (s.flagRecord .table (fun f => { f with underwrapped := true })),
        answer (byte2 b.seq ++ byte1 (lowestCount w.layers) ++ byte1 w.revolutions)) := by
  rw [cmdAbandonWrap, h]

theorem State.wrapping_none (h : ∀ b, s.recordIn .table = some b → b.stage ≠ .wrapping) : s.wrapping = none := by
  cases hw : s.wrapping with
  | none => rfl
  | some x =>
    obtain ⟨hb, hst, -⟩ := State.wrapping_some (b := x.1) (w := x.2) hw
    exact absurd hst (h _ hb)

end

/-- The lowest count is the one count that no other is below. -/
theorem lowestCount_eq {l : List Nat} {low : Nat} (hm : low ∈ l) (h : ∀ n ∈ l, low ≤ n) :
    lowestCount l = low := by
  have hne : l ≠ [] := List.ne_nil_of_mem hm
  exact Nat.le_antisymm ((le_lowestCount l hne _).mp (Nat.le_refl _) low hm) ((le_lowestCount l hne _).mpr h)

/-! ### A record flagged and moved on the table -/

/-- A record of the table flagged, then moved to a stage of the table that is neither EJECTING nor WRAPPING. -/
theorem State.HoldsIn.flagAndEnter {s : State} {older younger : List Bale} {b : Bale}
    (h : s.HoldsIn .table older b younger) (hd : DriveInv s) (hn : s.nrstAsserted = false) {st : Stage}
    (hst : st = .wrapped ∨ st = .tipping) (f : RecordFlags → RecordFlags) :
    BalesBecome (older ++ { b with flags := f b.flags }.toStage st s.bt.runClock :: younger) s
      (Machine.enterStage .table st (s.flagRecord .table f)) ∧
    Hands (stageSettings .table b.seq) s (Machine.enterStage .table st (s.flagRecord .table f)) ∧
    OnlyChanges (.bt :: arbiters) s (Machine.enterStage .table st (s.flagRecord .table f)) := by
  have hflagged : (s.flagRecord .table f).HoldsIn .table older { b with flags := f b.flags } younger :=
    h.modified (fun x => { x with flags := f x.flags }) h.2.1
  obtain ⟨hz, he, hw⟩ : st.zone = .table ∧ st ≠ .ejecting ∧ st ≠ .wrapping := by
    rcases hst with rfl | rfl <;> decide
  obtain ⟨hbt, hhands, hframe, -⟩ := hflagged.enterTable (hd.flagRecord hn .table f) hn hz he
  rw [if_neg hw] at hframe
  exact ⟨hbt, hhands.congr rfl rfl, ((State.modifyRecord_frame .table _ s).mono (by simp)).trans hframe⟩

/-! ### TIP and ABANDON WRAP taken as requests -/

section
variable {s : State} {older younger : List Bale} {b : Bale}

/-- TIP of a WRAPPED record, whatever the force byte. -/
theorem State.HoldsIn.tip_runs (h : s.HoldsIn .table older b younger) (hn : s.nrstAsserted = false) (hd : DriveInv s)
    {f : Byte} (hf : f.toNat ≤ 1) (hst : b.stage = .wrapped) (hs : s.mi.stop.filtered = false) :
    Runs (.tip .b [f]) s (fun t =>
      BalesBecome (older ++ { b with stage := .tipping } :: younger) s t ∧
      Hands (stageSettings .table b.seq) s t ∧ Answered .b .tip .ok (byte2 b.seq ++ flag1 false) t ∧
      OnlyChanges (.bt :: .link .b :: arbiters) s t) := by
  let u := Machine.beforeTake .b Command.tip.byte s
  have hu : u.HoldsIn .table older b younger := h.beforeTake
  obtain ⟨hbt, hhands, hframe, -⟩ := hu.enterTable (hd.beforeTake .b _) (by simpa [u] using hn) (st := .tipping) rfl
    (by decide)
  have hcmd := cmdTip_wrapped .b hf hu.recordIn hst
  rw [if_neg (by simp [u, hs])] at hcmd
  refine runs_of (c := .tip) rfl hn rfl rfl hcmd ⟨?_, hhands.request rfl, ?_, ?_⟩
  · simpa [Bale.toStage] using hbt.request
  · simp [Answered, answer, Command.byte]
  · exact (request_frame hframe).mono (by simp +contextual [or_imp])

/-- TIP of a WRAPPING record by force (R126). -/
theorem State.HoldsIn.forcedTip_runs (h : s.HoldsIn .table older b younger) (hn : s.nrstAsserted = false)
    (hd : DriveInv s) {f : Byte} (hf : f.toNat = 1) (hst : b.stage = .wrapping) (hs : s.mi.stop.filtered = false) :
    Runs (.tip .b [f]) s (fun t =>
      BalesBecome (older ++
        { b with stage := .tipping, flags := { b.flags with underwrapped := true, forcedTip := true } } ::
        younger) s t ∧
      Hands (stageSettings .table b.seq) s t ∧ Answered .b .tip .ok (byte2 b.seq ++ flag1 true) t ∧
      OnlyChanges (.bt :: .link .b :: arbiters) s t) := by
  let u := Machine.beforeTake .b Command.tip.byte s
  have hu : u.HoldsIn .table older b younger := h.beforeTake
  obtain ⟨hbt, hhands, hframe⟩ := hu.flagAndEnter (hd.beforeTake .b _) (by simpa [u] using hn) (.inr rfl)
    (fun f => { f with underwrapped := true, forcedTip := true })
  have hcmd := cmdTip_forced .b hf hu.recordIn hst
  rw [if_neg (by simp [u, hs])] at hcmd
  refine runs_of (c := .tip) rfl hn rfl rfl hcmd ⟨?_, hhands.request rfl, ?_, ?_⟩
  · simpa [Bale.toStage, flagForcedTip] using hbt.request
  · simp [Answered, answer, Command.byte]
  · exact (request_frame hframe).mono (by simp +contextual [or_imp])

/-- Under STOP a TIP that would pass is refused (R125). -/
theorem State.HoldsIn.tip_stopped (h : s.HoldsIn .table older b younger) (hn : s.nrstAsserted = false) {f : Byte}
    (hf : f.toNat ≤ 1) (hst : b.stage = .wrapped ∨ (b.stage = .wrapping ∧ f.toNat = 1))
    (hs : s.mi.stop.filtered = true) : Runs (.tip .b [f]) s (Refused .b .tip .stopped s) := by
  let u := Machine.beforeTake .b Command.tip.byte s
  have hu : u.HoldsIn .table older b younger := h.beforeTake
  have hus : u.mi.stop.filtered = true := by simpa [u] using hs
  refine refused_of (c := .tip) rfl hn rfl rfl ?_
  rcases hst with hst | ⟨hst, hforce⟩
  · exact (cmdTip_wrapped .b hf hu.recordIn hst).trans (if_pos hus)
  · exact (cmdTip_forced .b hforce hu.recordIn hst).trans (if_pos hus)

/-- ABANDON WRAP of a WRAPPING record: WRAPPED with no WRAP_DONE (R124). -/
theorem State.HoldsIn.abandonWrap_runs (h : s.HoldsIn .table older b younger) (hn : s.nrstAsserted = false)
    (hd : DriveInv s) {w : WrapSection} {low : Nat} (hst : b.stage = .wrapping) (hw : b.wrap = some w)
    (hlow : lowestCount w.layers = low) :
    Runs (.abandonWrap .b []) s (fun t =>
      BalesBecome (older ++
        { b with
          stage := .wrapped, wrapped := some s.bt.runClock, flags := { b.flags with underwrapped := true } } ::
        younger) s t ∧
      Hands (stageSettings .table b.seq) s t ∧
      Answered .b .abandonWrap .ok (byte2 b.seq ++ byte1 low ++ byte1 w.revolutions) t ∧
      OnlyChanges (.bt :: .link .b :: arbiters) s t) := by
  let u := Machine.beforeTake .b Command.abandonWrap.byte s
  have hu : u.HoldsIn .table older b younger := h.beforeTake
  obtain ⟨hbt, hhands, hframe⟩ := hu.flagAndEnter (hd.beforeTake .b _) (by simpa [u] using hn) (.inl rfl)
    (fun f => { f with underwrapped := true })
  refine runs_of (c := .abandonWrap) rfl hn rfl rfl (cmdAbandonWrap_abandons .b [] (hu.wrapping hst hw))
    ⟨?_, hhands.request rfl, ?_, ?_⟩
  · simpa [Bale.toStage, hst, u] using hbt.request
  · simp [Answered, answer, Command.byte, hlow]
  · exact (request_frame hframe).mono (by simp +contextual [or_imp])

end

/-- Settles O47: the checks in their order, then each stage change as the taking of the request leaves it. -/
theorem tipAndAbandonWrap : Obligations.TipAndAbandonWrap := by
  intro f s hn hd _
  refine ⟨fun hf => ?_, fun hf h => ?_, fun h => ?_, fun older younger b hh =>
    ⟨hh.tip_stopped hn, hh.tip_runs hn hd, hh.forcedTip_runs hn hd, fun w low hst hw hm hlow =>
      hh.abandonWrap_runs hn hd hst hw (lowestCount_eq hm hlow)⟩⟩
  · exact refused_of (c := .tip) rfl hn rfl rfl (cmdTip_badValue .b hf)
  · exact refused_of (c := .tip) rfl hn rfl rfl (cmdTip_notReady .b hf (by simpa using h))
  · refine refused_of (c := .abandonWrap) rfl hn rfl rfl (cmdAbandonWrap_notReady .b [] ?_)
    rw [beforeTake_wrapping]
    exact State.wrapping_none h

end Sys2Proof.Machine
end

section
/-! Proofs. The dispensers and the rolls: a film pulse (R136), RESTORE DISPENSER, WITHDRAW DISPENSER (R139, R140) and
NEW ROLL (R146, R147), each as the change of one dispenser's record or of the net stock. -/

namespace Sys2Proof.Machine

/-! ### One dispenser changed -/

theorem OnlyChanges.of_ds (s : State) (x : DispenserStock) : OnlyChanges [.ds] s { s with ds := x } := by
  intro k hk
  cases k with
  | arbiter p => exact ⟨rfl, rfl, rfl⟩
  | link p => cases p <;> rfl
  | _ => first | rfl | simp at hk

@[simp] theorem State.modifyDispenser_get (s : State) (k j : Dispenser) (f : DispenserRecord → DispenserRecord) :
    (s.modifyDispenser k f).ds.film.get j = if j = k then f (s.ds.film.get k) else s.ds.film.get j := by
  simp [State.modifyDispenser]

theorem State.modifyDispenser_stockFrame (s : State) (k : Dispenser) (f : DispenserRecord → DispenserRecord) :
    StockFrame k s (s.modifyDispenser k f) :=
  ⟨fun j hj => by simp [hj], rfl, rfl⟩

theorem StockFrame.congr {k : Dispenser} {s s' t t' : State} (h : StockFrame k s t) (hs : s'.ds = s.ds)
    (ht : t'.ds = t.ds) : StockFrame k s' t' := by
  unfold StockFrame
  rwa [hs, ht]

/-- A request whose block changes one dispenser's record and answers. -/
theorem runs_of_dispenser {i : Instr} {p : Port} {c : Command} {pl payload : List Byte} {s : State} {k : Dispenser}
    {f : DispenserRecord → DispenserRecord} (hr : requestRow i = some (p, c.byte, pl)) (hn : s.nrstAsserted = false)
    (hp : c.permits p = true) (hl : c.lengthFits pl = true)
    (hc : ownBlock c p pl (beforeTake p c.byte s) = ((beforeTake p c.byte s).modifyDispenser k f, answer payload)) :
    Runs i s (fun t =>
      t.ds.film.get k = f (s.ds.film.get k) ∧ StockFrame k s t ∧ Answered p c .ok payload t ∧
      OnlyChanges (.ds :: takeBlocks p s) s t) := by
  refine runs_of hr hn hp hl hc ⟨?_, ?_, ?_, ?_⟩
  · simp
  · exact (State.modifyDispenser_stockFrame _ k f).congr (beforeTake_ds p _ s).symm (after_ds p _ _)
  · simp [Answered, answer, Command.byte]
  · exact request_frame (changed := [.ds]) (State.modifyDispenser_frame k f _)

/-! ### The dispenser a request names -/

theorem dispenserOfNumber_eq {n : Nat} {k : Dispenser} (h : n = dispenserNumber k) :
    dispenserOfNumber n = some k := by
  subst h
  cases k <;> rfl

theorem dispenserOfNumber_none {n : Nat} (h1 : n ≠ 1) (h2 : n ≠ 2) : dispenserOfNumber n = none := by
  unfold dispenserOfNumber
  split <;> first | rfl | contradiction

theorem dispenserNumber_of_some {n : Nat} {k : Dispenser} (h : dispenserOfNumber n = some k) :
    n = dispenserNumber k := by
  unfold dispenserOfNumber at h
  split at h <;> cases h <;> rfl

theorem dispenserNumber_range (k : Dispenser) : 1 ≤ dispenserNumber k ∧ dispenserNumber k ≤ 2 := by
  cases k <;> decide

/-- The first byte of a payload, returned as it came. -/
theorem byte1_nat1 (n : Byte) (rest : List Byte) : byte1 (nat1 (n :: rest) 0) = [n] := by simp [byte1, nat1]

/-! ### RESTORE DISPENSER and WITHDRAW DISPENSER (R139, R140) -/

/-- A dispenser as RESTORE DISPENSER leaves it (R139). -/
def DispenserRecord.restored (d : DispenserRecord) : DispenserRecord := { d with state := .running, silence := 0 }

/-- A dispenser as WITHDRAW DISPENSER leaves it (R140). -/
def DispenserRecord.withdrawn (d : DispenserRecord) : DispenserRecord := { d with state := .out }

section
variable (p : Port) {pl : List Byte} {s : State} {k : Dispenser}

/-- The checks of R139 in their order, on the dispenser named. -/
theorem cmdRestoreDispenser_names (hk : nat1 pl 0 = dispenserNumber k) :
    cmdRestoreDispenser p pl s =
      if (s.ds.film.get k).state = .running ∨ (s.ds.film.get k).state = .empty then (s, refuse .notReady)
      else if (s.ds.film.get k).known = true ∧ (s.ds.film.get k).stock = 0 then (s, refuse .empty)
      else (s.modifyDispenser k DispenserRecord.restored,
        answer (byte1 (nat1 pl 0) ++ byte1 0 ++ flag1 (s.ds.film.get k).known ++ byte4 (s.ds.film.get k).stock)) := by
  rw [cmdRestoreDispenser, dispenserOfNumber_eq hk, hk]
  rfl

theorem cmdRestoreDispenser_badValue (h : dispenserOfNumber (nat1 pl 0) = none) :
    cmdRestoreDispenser p pl s = (s, refuse .badValue) := by
  rw [cmdRestoreDispenser, h]

theorem cmdWithdrawDispenser_names (hk : nat1 pl 0 = dispenserNumber k) :
    cmdWithdrawDispenser p pl s = (s.modifyDispenser k DispenserRecord.withdrawn,
      answer (byte1 (nat1 pl 0) ++ byte1 (s.ds.film.get k).state.code)) := by
  rw [cmdWithdrawDispenser, dispenserOfNumber_eq hk, hk]
  rfl

theorem cmdWithdrawDispenser_badValue (h : dispenserOfNumber (nat1 pl 0) = none) :
    cmdWithdrawDispenser p pl s = (s, refuse .badValue) := by
  rw [cmdWithdrawDispenser, h]

/-! ### NEW ROLL (R146, R147) -/

theorem cmdNewRoll_badValue (h : 2 < nat1 pl 0 ∨ nat4 pl 1 = 0) : cmdNewRoll p pl s = (s, refuse .badValue) := by
  unfold cmdNewRoll
  rcases h with h | h <;> simp [h]

/-- The net roll (R147). -/
theorem cmdNewRoll_net (hroll : nat1 pl 0 = 0) (hlen : nat4 pl 1 ≠ 0) :
    cmdNewRoll p pl s =
      ({ s with ds := { s.ds with netStock := min (nat4 pl 1) 40000000, netKnown := true } },
        answer (byte1 (nat1 pl 0) ++ byte4 (min (nat4 pl 1) 40000000) ++ flag1 (decide (40000000 < nat4 pl 1)) ++
          byte1 0)) := by
  simp only [cmdNewRoll, hroll, hlen, rollTop, ne_eq, min_eq_left_iff, Nat.not_le]
  rfl

/-- The film roll of a dispenser (R147). -/
theorem cmdNewRoll_film (hk : nat1 pl 0 = dispenserNumber k) (hlen : nat4 pl 1 ≠ 0) :
    cmdNewRoll p pl s =
      (s.modifyDispenser k (·.newRoll (min (nat4 pl 1) 3000000)),
        answer (byte1 (nat1 pl 0) ++ byte4 (min (nat4 pl 1) 3000000) ++ flag1 (decide (3000000 < nat4 pl 1)) ++
          byte1 ((s.ds.film.get k).newRoll (min (nat4 pl 1) 3000000)).state.code)) := by
  obtain ⟨hpos, hle⟩ := dispenserNumber_range k
  have htop : rollTop (dispenserNumber k) = 3000000 := if_neg (by omega)
  simp only [cmdNewRoll, hk, dispenserOfNumber_eq rfl, htop, ne_eq, min_eq_left_iff, Nat.not_le, hlen,
    Nat.not_lt.mpr hle, if_false]

end

/-! ### Taken as requests -/

section
variable {s : State} {n : Byte} {k : Dispenser}

theorem restoreDispenser_refused {st : Status} (hn : s.nrstAsserted = false)
    (hc : ∀ u : State, u.ds = s.ds → cmdRestoreDispenser .b [n] u = (u, refuse st)) :
    Runs (.restoreDispenser .b [n]) s (Refused .b .restoreDispenser st s) :=
  refused_of (c := .restoreDispenser) rfl hn rfl rfl (hc _ (beforeTake_ds _ _ _))

theorem restoreDispenser_runs (hn : s.nrstAsserted = false) (hk : n.toNat = dispenserNumber k)
    (hstate : (s.ds.film.get k).state = .broken ∨ (s.ds.film.get k).state = .out)
    (hstock : ¬ ((s.ds.film.get k).known = true ∧ (s.ds.film.get k).stock = 0)) :
    Runs (.restoreDispenser .b [n]) s (fun t =>
      t.ds.film.get k = (s.ds.film.get k).restored ∧ StockFrame k s t ∧
      Answered .b .restoreDispenser .ok
        (n :: byte1 0 ++ flag1 (s.ds.film.get k).known ++ byte4 (s.ds.film.get k).stock) t ∧
      OnlyChanges [.ds, .link .b] s t) := by
  have hnot : ¬ ((s.ds.film.get k).state = .running ∨ (s.ds.film.get k).state = .empty) := by
    rcases hstate with h | h <;> simp [h]
  refine runs_of_dispenser (c := .restoreDispenser) (f := DispenserRecord.restored) rfl hn rfl rfl ?_
  rw [ownBlock, cmdRestoreDispenser_names .b (pl := [n]) hk, beforeTake_ds, if_neg hnot, if_neg hstock, byte1_nat1]
  rfl

theorem withdrawDispenser_runs (hn : s.nrstAsserted = false) (hk : n.toNat = dispenserNumber k) :
    Runs (.withdrawDispenser .b [n]) s (fun t =>
      t.ds.film.get k = (s.ds.film.get k).withdrawn ∧ StockFrame k s t ∧
      Answered .b .withdrawDispenser .ok (n :: byte1 (s.ds.film.get k).state.code) t ∧
      OnlyChanges [.ds, .link .b] s t) := by
  refine runs_of_dispenser (c := .withdrawDispenser) (f := DispenserRecord.withdrawn) rfl hn rfl rfl ?_
  rw [ownBlock, cmdWithdrawDispenser_names .b (pl := [n]) hk, beforeTake_ds, byte1_nat1]
  rfl

end

section
variable {s : State} {roll b3 b2 b1 b0 : Byte}

/-- The length a NEW ROLL carries. -/
theorem nat4_newRoll {len : Nat}
    (h : len = b3.toNat * 16777216 + b2.toNat * 65536 + b1.toNat * 256 + b0.toNat) :
    nat4 [roll, b3, b2, b1, b0] 1 = len := by
  simp [nat4, nat2, nat1]
  omega

theorem newRoll_net_runs (hn : s.nrstAsserted = false) {len : Nat} (hlen : nat4 [roll, b3, b2, b1, b0] 1 = len)
    (hroll : roll.toNat = 0) (hpos : len ≠ 0) :
    Runs (.newRoll .c [roll, b3, b2, b1, b0]) s (fun t =>
      t.ds = { s.ds with netStock := min len 40000000, netKnown := true } ∧
      Answered .c .newRoll .ok (roll :: byte4 (min len 40000000) ++ flag1 (decide (40000000 < len)) ++ byte1 0) t ∧
      OnlyChanges (.ds :: takeBlocks .c s) s t) := by
  subst hlen
  refine runs_of (c := .newRoll) rfl hn rfl rfl (cmdNewRoll_net .c hroll hpos) ⟨by simp, ?_, ?_⟩
  · simp [Answered, answer, Command.byte, byte1_nat1]
  · exact request_frame (changed := [.ds]) (OnlyChanges.of_ds _ _)

theorem newRoll_film_runs (hn : s.nrstAsserted = false) {len : Nat} (hlen : nat4 [roll, b3, b2, b1, b0] 1 = len)
    {k : Dispenser} (hk : roll.toNat = dispenserNumber k) (hpos : len ≠ 0) :
    Runs (.newRoll .c [roll, b3, b2, b1, b0]) s (fun t =>
      t.ds.film.get k = (s.ds.film.get k).newRoll (min len 3000000) ∧ StockFrame k s t ∧
      Answered .c .newRoll .ok (roll :: byte4 (min len 3000000) ++ flag1 (decide (3000000 < len)) ++
        byte1 (t.ds.film.get k).state.code) t ∧
      OnlyChanges (.ds :: takeBlocks .c s) s t) := by
  subst hlen
  have hcmd := cmdNewRoll_film .c (pl := [roll, b3, b2, b1, b0]) (s := beforeTake .c Command.newRoll.byte s) hk hpos
  rw [byte1_nat1, beforeTake_ds] at hcmd
  refine Runs.imp (runs_of_dispenser (c := .newRoll) rfl hn rfl rfl hcmd) (fun t ⟨hfilm, hrest⟩ => ⟨hfilm, ?_⟩)
  rw [hfilm]
  exact hrest

end

/-- Settles O48: the dispenser named and the checks in their order, then the one record, or the net stock, changed. -/
theorem dispensersAndRolls : Obligations.DispensersAndRolls := by
  refine ⟨fun n s hn => ⟨fun h1 h2 => ?_, fun k hk => ⟨fun hstate => ?_, fun hstate hknown hstock => ?_,
    restoreDispenser_runs hn hk, withdrawDispenser_runs hn hk⟩⟩,
    fun roll b3 b2 b1 b0 s len hn hlen => ⟨fun hbad => ?_, ?_, fun k => ?_⟩⟩
  · have hnone : dispenserOfNumber (nat1 [n] 0) = none := dispenserOfNumber_none h1 h2
    exact ⟨restoreDispenser_refused hn fun _ _ => cmdRestoreDispenser_badValue .b hnone,
      refused_of (c := .withdrawDispenser) rfl hn rfl rfl (cmdWithdrawDispenser_badValue .b hnone)⟩
  · refine restoreDispenser_refused hn fun u hu => ?_
    rw [cmdRestoreDispenser_names .b (pl := [n]) hk, hu, if_pos hstate]
  · refine restoreDispenser_refused hn fun u hu => ?_
    rw [cmdRestoreDispenser_names .b (pl := [n]) hk, hu, if_neg (by rcases hstate with h | h <;> simp [h]),
      if_pos ⟨hknown, hstock⟩]
  · rw [← nat4_newRoll (roll := roll) hlen] at hbad
    exact refused_of (c := .newRoll) rfl hn rfl rfl (cmdNewRoll_badValue .c hbad)
  · exact newRoll_net_runs hn (nat4_newRoll hlen)
  · exact newRoll_film_runs hn (nat4_newRoll hlen)

end Sys2Proof.Machine

namespace Sys2Proof.Proofs

open Machine

/-- Settles O16: the record changed is the dispenser's own, in its silence counter alone. -/
theorem filmPulse : Obligations.FilmPulse := by
  intro k s hn
  obtain ⟨hothers, hnet, hknown⟩ := s.modifyDispenser_stockFrame k (fun d => { d with silence := 0 })
  refine .intro (t := refreshAttention (Machine.filmPulse k s)) (by simp [exec, execFilmPulse, hn])
    ⟨?_, hothers, hnet, hknown, ?_⟩
  · simp [Machine.filmPulse]
  · exact (OnlyChanges_refreshAttention _ _ _).mpr (State.modifyDispenser_frame k _ s)

end Sys2Proof.Proofs
end

section
/-! Proofs. The stocks (R132, R133) and the report queue (R154, R157): the range of one dispenser's record and of the
queue, which changes of them keep it, and the operations shared by the events. -/

namespace Sys2Proof.Machine

/-! ### One dispenser's record (R132, R133) -/

/-- What `StockInv` says of each dispenser, its silence counter stopping at `limit`. -/
def DispenserRecord.Stored (limit : Nat) (d : DispenserRecord) : Prop := d.StockInv ∧ d.silence ≤ limit

/-- A dispenser after a counted lay: charged, and EMPTY where the charge brought a known stock to 0 (R142, R143). -/
def DispenserRecord.afterLay (d : DispenserRecord) (numerator divisor : Nat) : DispenserRecord :=
  { d.afterCharge numerator divisor with
    state := if d.shortOf (numerator / divisor) then .empty else d.state }

/-- A charge never raises a stock (R143). -/
theorem DispenserRecord.afterCharge_stock_le (d : DispenserRecord) (numerator divisor : Nat) :
    (d.afterCharge numerator divisor).stock ≤ d.stock := by
  unfold DispenserRecord.afterCharge
  dsimp only
  split <;> omega

/-- A charge that does not bring a known stock to 0 leaves some (R143). -/
theorem DispenserRecord.afterCharge_stock_ne {d : DispenserRecord} {numerator divisor : Nat} (hk : d.known = true)
    (h : d.shortOf (numerator / divisor) = false) : (d.afterCharge numerator divisor).stock ≠ 0 := by
  have hmore : numerator / divisor < d.stock := by simpa [DispenserRecord.shortOf, hk] using h
  have hstock : (d.afterCharge numerator divisor).stock = d.stock - numerator / divisor := by
    simp [DispenserRecord.afterCharge, DispenserRecord.taken, hk, h]
  omega

namespace DispenserRecord.Stored

variable {limit : Nat} {d : DispenserRecord}

/-- A silence counter at 0 is in range whatever its limit. -/
theorem unsilenced (h : d.Stored limit) (limit' : Nat) : { d with silence := 0 }.Stored limit' :=
  ⟨h.1, Nat.zero_le _⟩

/-- A dispenser that is not RUNNING may have a known stock of 0. -/
theorem stopped (h : d.Stored limit) {st : DispenserState} (hst : st ≠ .running) :
    { d with state := st }.Stored limit := by
  obtain ⟨⟨-, hstock⟩, hsilence⟩ := h
  exact ⟨⟨fun hrun => absurd hrun.1 hst, hstock⟩, hsilence⟩

/-- The silence counter stops at its limit (R135). -/
theorem silenced (h : d.Stored limit) (breaks : Bool) : (d.silenced limit breaks).Stored limit := by
  have hstepped : { d with silence := stepSaturating d.silence limit }.Stored limit := ⟨h.1, stepSaturating_le h.2⟩
  cases breaks
  · exact hstepped
  · exact hstepped.stopped (st := .broken) (by decide)

/-- A lay that leaves a known stock of 0 leaves the dispenser EMPTY (R143). -/
theorem afterLay (h : d.Stored limit) (numerator divisor : Nat) : (d.afterLay numerator divisor).Stored limit := by
  obtain ⟨⟨-, hstock⟩, hsilence⟩ := h
  refine ⟨⟨fun ⟨hrun, hknown⟩ => ?_, (d.afterCharge_stock_le _ _).trans hstock⟩, hsilence⟩
  refine DispenserRecord.afterCharge_stock_ne hknown (Bool.eq_false_iff.mpr fun hshort => ?_)
  simp [DispenserRecord.afterLay, hshort] at hrun

/-- RESTORE DISPENSER is refused with a known stock of 0 (R139). -/
theorem restored (h : d.Stored limit) (hstock : ¬ (d.known = true ∧ d.stock = 0)) : d.restored.Stored limit := by
  obtain ⟨⟨-, htop⟩, -⟩ := h
  exact ⟨⟨fun ⟨_, hknown⟩ hzero => hstock ⟨hknown, hzero⟩, htop⟩, Nat.zero_le _⟩

/-- A new roll is never of length 0 (R146). -/
theorem newRoll (h : d.Stored limit) {mm : Nat} (hpos : mm ≠ 0) (htop : mm ≤ 3000000) :
    (d.newRoll mm).Stored limit := ⟨⟨fun _ => hpos, htop⟩, h.2⟩

theorem pinReset (h : d.Stored limit) : d.pinReset.Stored limit :=
  (h.unsilenced limit).stopped (st := .out) (by decide)

end DispenserRecord.Stored

/-! ### The stocks of a state -/

namespace StockInv

variable {s t : State}

theorem stored (h : StockInv s) (k : Dispenser) : (s.ds.film.get k).Stored (s.rs.constants.tablePulses / 4) := h.2 k

theorem still (h : StockInv s) (hds : t.ds = s.ds)
    (hpulses : t.rs.constants.tablePulses = s.rs.constants.tablePulses) : StockInv t := by
  unfold StockInv
  rwa [hds, hpulses]

/-- One dispenser's record changed. -/
theorem setFilm (h : StockInv s) (k : Dispenser) {d : DispenserRecord}
    (hds : t.ds = { s.ds with film := s.ds.film.set k d }) (hrs : t.rs = s.rs)
    (hd : d.Stored (s.rs.constants.tablePulses / 4)) : StockInv t := by
  unfold StockInv
  rw [hds, hrs]
  refine ⟨h.1, fun j => ?_⟩
  rw [PerDispenser.get_set]
  split
  · exact hd
  · exact h.stored j

/-- Silence counters at 0 are in range whatever `table_pulses` is (R61). -/
theorem cleared (h : StockInv s) (hds : t.ds = (clearSilence s).ds) : StockInv t := by
  unfold StockInv
  rw [hds]
  refine ⟨h.1, fun k => ?_⟩
  rw [clearSilence_film]
  exact (h.stored k).unsilenced _

end StockInv

/-! ### The queue (R154, R157, R161) -/

/-- What `QueueInv` says of RQ. -/
def ReportQueue.Sound (q : ReportQueue) : Prop :=
  q.queue.length ≤ 16 ∧ (q.holding.isSome = true → q.queue.length = 16) ∧ q.lost ≤ 65535

theorem queueInv_iff (s : State) : QueueInv s ↔ s.rq.Sound := Iff.rfl

namespace ReportQueue.Sound

variable {q q' : ReportQueue}

/-- A report joins a queue of less than sixteen, and with sixteen it is held (R157). -/
theorem arrives (h : q.Sound) {r : Report} (ha : Arrives r q q') : q'.Sound := by
  obtain ⟨hlen, hheld, hlost⟩ := h
  obtain ⟨hjoins, hwaits, hdisplaces⟩ := ha
  by_cases hroom : q.queue.length < 16
  · rw [hjoins hroom]
    have hfree : q.holding.isSome = true → False := fun hs => by
      have := hheld hs
      omega
    exact ⟨by simpa using hroom, fun hs => (hfree hs).elim, hlost⟩
  · have hfull : q.queue.length = 16 := by omega
    cases hh : q.holding with
    | none =>
      rw [hwaits (by omega) hh]
      exact ⟨hlen, fun _ => hfull, hlost⟩
    | some x =>
      rw [hdisplaces (by omega) (by simp [hh])]
      exact ⟨hlen, fun _ => hfull, stepSaturating_le hlost⟩

theorem offers (h : q.Sound) {reports : List Report} (ho : OffersReach reports q q') : q'.Sound := by
  induction reports generalizing q with
  | nil =>
    cases ho
    exact h
  | cons r rest ih =>
    obtain ⟨m, harrives, hrest⟩ := ho
    exact ih (h.arrives harrives) hrest

/-- The held report takes the place that the head leaves (R161). -/
theorem release (h : q.Sound) : q.release.Sound := by
  obtain ⟨hlen, hheld, hlost⟩ := h
  unfold ReportQueue.release
  split
  next r hr =>
    have hfull := hheld (by simp [hr])
    exact ⟨by simp [hfull], nofun, hlost⟩
  next hr =>
    exact ⟨by simp; omega, by simp [hr], hlost⟩

end ReportQueue.Sound

/-! ### What keeps both -/

/-- From one state to the next the stocks stay in range if they were, and so does the queue. -/
structure KeepsStores (s t : State) : Prop where
  stock : StockInv s → StockInv t
  queue : QueueInv s → QueueInv t

namespace KeepsStores

variable {s t u : State}

theorem refl (s : State) : KeepsStores s s := ⟨id, id⟩

theorem trans (h1 : KeepsStores s t) (h2 : KeepsStores t u) : KeepsStores s u :=
  ⟨h2.stock ∘ h1.stock, h2.queue ∘ h1.queue⟩

/-- A change that reaches neither DS nor `table_pulses` nor RQ. -/
theorem of_eq (hds : t.ds = s.ds) (hpulses : t.rs.constants.tablePulses = s.rs.constants.tablePulses)
    (hrq : t.rq = s.rq) : KeepsStores s t :=
  ⟨fun h => h.still hds hpulses, fun h => by rwa [queueInv_iff, hrq]⟩

/-- Such a change, said by a frame. -/
theorem of_frame {changed : List Block} (h : OnlyChanges changed s t)
    (hc : ∀ k ∈ [Block.ds, .rs, .rq], k ∉ changed) : KeepsStores s t :=
  have hrs : t.rs = s.rs := h .rs (hc _ (by simp))
  .of_eq (h .ds (hc _ (by simp))) (by rw [hrs]) (h .rq (hc _ (by simp)))

/-- One dispenser's record changed, in range as it was. -/
theorem of_film (k : Dispenser) {d : DispenserRecord} (hds : t.ds = { s.ds with film := s.ds.film.set k d })
    (hrs : t.rs = s.rs) (hrq : t.rq = s.rq)
    (hd : (s.ds.film.get k).Stored (s.rs.constants.tablePulses / 4) → d.Stored (s.rs.constants.tablePulses / 4)) :
    KeepsStores s t :=
  ⟨fun h => h.setFilm k hds hrs (hd (h.stored k)), fun h => by rwa [queueInv_iff, hrq]⟩

/-- RQ changed, in range as it was. -/
theorem of_queue (hds : t.ds = s.ds) (hrs : t.rs = s.rs) (hq : s.rq.Sound → t.rq.Sound) : KeepsStores s t :=
  ⟨fun h => h.still hds (by rw [hrs]), hq⟩

/-- A further change of other parts. -/
theorem still (h : KeepsStores s t) (hds : u.ds = t.ds) (hrs : u.rs = t.rs) (hrq : u.rq = t.rq) : KeepsStores s u :=
  h.trans (.of_eq hds (by rw [hrs]) hrq)

/-- An earlier change of other parts. -/
theorem after (h : KeepsStores t u) (hds : t.ds = s.ds) (hrs : t.rs = s.rs) (hrq : t.rq = s.rq) : KeepsStores s u :=
  (of_eq hds (by rw [hrs]) hrq).trans h

end KeepsStores

theorem setLatch_stores (p : Port) (src : Source) (i : Fin 4) (d : Nat) (s : State) :
    KeepsStores s (setLatch p src i d s) := .of_eq rfl rfl rfl

theorem State.flagRecord_stores (s : State) (z : Zone) (f : RecordFlags → RecordFlags) :
    KeepsStores s (s.flagRecord z f) := .of_eq rfl rfl rfl

/-! ### Stage changes, grants and closures -/

/-- DS is informed of the entry to WRAPPING alone (R15, R134). -/
theorem stageNeighbours_ds {st : Stage} (hst : st ≠ .wrapping) (q : Nat) (s : State) :
    (stageNeighbours st q s).ds = s.ds := by
  cases st with
  | wrapping => exact absurd rfl hst
  | _ => simp [stageNeighbours]

theorem enterStage_ds {st : Stage} (hst : st ≠ .wrapping) (z : Zone) (s : State) : (enterStage z st s).ds = s.ds := by
  unfold enterStage
  split
  · exact stageNeighbours_ds hst _ _
  · rfl

theorem enterStage_stores (z : Zone) (st : Stage) (s : State) : KeepsStores s (enterStage z st s) := by
  by_cases hst : st = .wrapping
  · subst hst
    unfold enterStage
    split
    · exact ⟨fun h => h.cleared rfl, id⟩
    · exact .refl s
  · exact .of_eq (enterStage_ds hst z s) (by simp) (by simp)

theorem grantEject_stores (queued : Bool) (s : State) : KeepsStores s (grantEject queued s) := by
  unfold grantEject
  split
  · have hmoved := (enterStage_stores .chamber .ejecting { s.modifyRecord .chamber
      (fun x => { x with ejectRequested := false }) with hu := { s.hu with ejectSlot := none } }).after (s := s)
      rfl rfl rfl
    cases queued <;> exact hmoved.still rfl rfl rfl
  · exact .refl s

theorem evalGrant_stores (s : State) : KeepsStores s (evalGrant s) := by
  unfold evalGrant
  split
  · exact grantEject_stores true s
  · exact .refl s

theorem closureNeighbours_stores (z : Zone) (q : Nat) (reason : CloseReason) (s : State) :
    KeepsStores s (closureNeighbours z q reason s) := by
  cases z with
  | pre => exact .refl s
  | chamber => exact .of_eq rfl rfl rfl
  | table =>
    have hfreed : KeepsStores s { s with hu := { s.hu with reservation := none, transferTimer := .stopped } } :=
      .of_eq rfl rfl rfl
    unfold closureNeighbours
    dsimp only
    split
    · exact hfreed
    · exact hfreed.trans (evalGrant_stores _)

/-- A closure offers its report (R22, R157). -/
theorem closeRecord_stores (z : Zone) (reason : CloseReason) (s : State) :
    KeepsStores s (closeRecord z reason s) := by
  unfold closeRecord
  split
  next b _ =>
    refine KeepsStores.trans ?_ (closureNeighbours_stores z b.seq reason _)
    have hoffered := fun hq : s.rq.Sound =>
      hq.arrives (s.rq.arrives { b with closed := some s.bt.runClock, closeReason := some reason })
    split <;> exact .of_queue rfl rfl hoffered
  next => exact .refl s

theorem returnToForming_stores (s : State) : KeepsStores s (returnToForming s) :=
  (enterStage_stores .chamber .forming _).after rfl rfl rfl

theorem createRecord_stores (slot : Nat) (r : Recipe) (s : State) :
    KeepsStores s (createRecord slot r s.openingStage s) := by
  have hst : s.openingStage ≠ .wrapping := by
    rcases openingStage_cases s with h | ⟨h, -⟩ <;> simp [h]
  rw [createRecord_opening]
  exact .of_eq ((stageNeighbours_ds hst _ _).trans rfl) (by simp [appendRecord]) (by simp [appendRecord])

/-! ### The wrap -/

theorem testCompletion_ds (s : State) : (testCompletion s).ds = s.ds := by
  unfold testCompletion
  split
  · split
    · rw [setLatch_ds, enterStage_ds (by decide)]
    · rfl
  · rfl

theorem chargeFilm_ds (k : Dispenser) (b : Bale) (s : State) : (chargeFilm k b s).ds = { s.ds with
    film := s.ds.film.set k ((s.ds.film.get k).afterCharge
      (filmNumerator s.rs.constants b.netDiameter (s.ds.film.get k).residue) (100 + b.recipe.s)) } := by
  unfold chargeFilm
  dsimp only
  split <;> rfl

/-- Of DS a counted lay changes the record of its own dispenser, which ends EMPTY if it ran short (R142, R143). -/
theorem countedLay_ds (k : Dispenser) (b : Bale) (w : WrapSection) (s : State) : (countedLay k b w s).ds = { s.ds with
    film := s.ds.film.set k ((s.ds.film.get k).afterLay
      (filmNumerator s.rs.constants b.netDiameter (s.ds.film.get k).residue) (100 + b.recipe.s)) } := by
  have htested : (testCompletion (chargeFilm k b (s.modifyWrap (fun x =>
      x.lay k (bandWidth s.rs.constants b.recipe w.circ))))).ds = _ :=
    (testCompletion_ds _).trans (chargeFilm_ds k b _)
  unfold countedLay DispenserRecord.afterLay
  dsimp only
  rw [State.layCharge]
  cases (s.ds.film.get k).shortOf
    (filmNumerator s.rs.constants b.netDiameter (s.ds.film.get k).residue / (100 + b.recipe.s))
  · exact htested
  · rw [if_pos rfl, emptyDispenser, setLatch_ds, State.modifyDispenser, htested]
    cases k <;> rfl

theorem layPosition_stores (k : Dispenser) (s : State) : KeepsStores s (layPosition k s) := by
  have hframe := layPosition_frame k s
  have hrs : (layPosition k s).rs = s.rs := hframe .rs (by simp [arbiters])
  have hrq : (layPosition k s).rq = s.rq := hframe .rq (by simp [arbiters])
  cases hw : s.wrapping with
  | none =>
    rw [layPosition_uncounted (.inl hw)]
    exact .refl s
  | some x =>
    by_cases hcount : (s.ds.film.get k).state = .running ∧ s.mi.stop.filtered = false
    · have hlay : layPosition k s = countedLay k x.1 x.2 s := by
        rw [layPosition, hw]
        exact if_pos hcount
      exact .of_film k (hlay ▸ countedLay_ds k x.1 x.2 s) hrs hrq (·.afterLay _ _)
    · rw [layPosition_uncounted (.inr (by simpa [imp_iff_not_or] using hcount))]
      exact .refl s

theorem capWrap_stores (s : State) : KeepsStores s (capWrap s) := by
  unfold capWrap
  split
  · split
    · exact (s.flagRecord_stores _ _).trans ((enterStage_stores _ _ _).trans (setLatch_stores _ _ _ _ _))
    · exact .refl s
  · exact .refl s

theorem stepRevolution_stores (s : State) : KeepsStores s (stepRevolution s) :=
  (capWrap_stores _).after rfl rfl rfl

theorem stepSilence_stores (k : Dispenser) (q : Nat) (s : State) : KeepsStores s (stepSilence k q s) := by
  have hframe := stepSilence_frame k q s
  exact .of_film k (stepSilence_ds k q s) (hframe .rs (by simp)) (hframe .rq (by simp)) (·.silenced _)

theorem stepSilences_stores (s : State) : KeepsStores s (stepSilences s) := by
  unfold stepSilences
  split
  · exact (stepSilence_stores _ _ s).trans (stepSilence_stores _ _ _)
  · exact .refl s

/-- CV's part of an arrival is a stage change, of a record flagged and readied first. -/
theorem arriveCoverage_stores (b : Bale) (s : State) : KeepsStores s (arriveCoverage b s) := by
  have hflagged : KeepsStores s
      (if b.moistureMean = none then s.flagRecord .table (fun f => { f with moistureUnknown := true }) else s) := by
    split
    · exact s.flagRecord_stores _ _
    · exact .refl s
  unfold arriveCoverage
  dsimp only
  split
  · exact hflagged.trans ((enterStage_stores _ _ _).trans (setLatch_stores _ _ _ _ _))
  · exact hflagged.trans ((enterStage_stores _ _ _).after rfl rfl rfl)

end Sys2Proof.Machine
end

section
/-! Proofs. Every row keeps the stocks and the report queue in range (R132, R133, R154, R157): the level inputs, the
pulses, the timers, the resets, the requests, and the statement. -/

namespace Sys2Proof.Machine

/-! ### Level inputs -/

theorem tableLoadedRising_stores (s : State) : KeepsStores s (tableLoadedRising s) := by
  unfold tableLoadedRising
  split
  · split
    · exact (arriveCoverage_stores _ (arriveHandover _ s)).after rfl rfl rfl
    · exact setLatch_stores _ _ _ _ s
  · exact setLatch_stores _ _ _ _ s

theorem tableLoadedFalling_stores (s : State) : KeepsStores s (tableLoadedFalling s) := by
  unfold tableLoadedFalling
  split
  · split
    · exact closeRecord_stores _ _ s
    · exact (s.flagRecord_stores _ _).trans (closeRecord_stores _ _ _)
    · exact closeRecord_stores _ _ s
    · exact .refl s
  · exact .refl s

theorem stopFalling_stores (s : State) : KeepsStores s (stopFalling s) := by
  rw [stopFalling_eq]
  exact KeepsStores.trans (.of_frame (resumeDrive_frame s) (by simp)) (evalGrant_stores _)

theorem levelArrival_stores (i : LevelInput) (rising : Bool) (s : State) :
    KeepsStores s (levelArrival i rising s) := by
  cases i with
  | tailgate => exact .refl s
  | stop =>
    cases rising
    · exact stopFalling_stores s
    · exact .of_frame (stopRising_frame s) (by simp)
  | tableLoaded =>
    cases rising
    · exact tableLoadedFalling_stores s
    · exact tableLoadedRising_stores s

theorem State.modifyLevel_stores (s : State) (i : LevelInput) (f : LevelLine → LevelLine) :
    KeepsStores s (s.modifyLevel i f) := .of_frame (s.modifyLevel_frame i f) (by simp)

theorem stabilityExpiry_stores (i : LevelInput) (s : State) : KeepsStores s (stabilityExpiry i s) := by
  unfold stabilityExpiry
  dsimp only
  split
  · exact .refl s
  split
  · exact s.modifyLevel_stores i _
  · exact (s.modifyLevel_stores i _).trans (levelArrival_stores _ _ _)

/-! ### Pulses -/

theorem tablePulse_stores (s : State) : KeepsStores s (tablePulse s) := by
  have hsilent : ∀ n, KeepsStores s ((stepSilences s).withAngle n) := fun n =>
    (stepSilences_stores s).still rfl rfl rfl
  rw [tablePulse_eq]
  dsimp only
  split
  · exact (hsilent _).trans (layPosition_stores _ _)
  · exact hsilent _

theorem tableIndex_stores (s : State) : KeepsStores s (tableIndex s) := by
  have hlaid : KeepsStores s (layPosition .one (s.withAngle 0)) := (layPosition_stores _ _).after rfl rfl rfl
  unfold tableIndex
  dsimp only
  split
  · exact hlaid.trans (stepRevolution_stores _)
  · exact hlaid

/-- A pulse never raises the net stock (R145). -/
theorem chargeNet_stores (s : State) : KeepsStores s (chargeNet s) := by
  refine ⟨fun ⟨hnet, hfilm⟩ => ⟨?_, hfilm⟩, id⟩
  show (if s.ds.netKnown then s.ds.netStock - s.rs.constants.netStep else s.ds.netStock) ≤ 40000000
  split <;> omega

theorem netRoll_stores (s : State) : KeepsStores s (netRoll s) :=
  KeepsStores.trans (.of_frame (meterNet_frame s) (by simp [arbiters])) (chargeNet_stores _)

theorem filmPulse_stores (k : Dispenser) (s : State) : KeepsStores s (filmPulse k s) :=
  .of_film k rfl rfl rfl (·.unsilenced _)

/-! ### Completions and timers -/

theorem zeroDueExpiry_stores (ch : Channel) (s : State) : KeepsStores s (zeroDueExpiry ch s) := by
  unfold zeroDueExpiry
  (repeat' split) <;> exact .of_eq rfl rfl rfl

theorem autoZeroCompletion_stores (ch : Channel) (s : State) : KeepsStores s (autoZeroCompletion ch s) := by
  unfold autoZeroCompletion
  split <;> exact .of_eq rfl rfl rfl

theorem netCatchExpiry_stores (s : State) : KeepsStores s (netCatchExpiry s) := by
  unfold netCatchExpiry
  split
  · split
    · exact (returnToForming_stores s).trans (setLatch_stores _ _ _ _ _)
    · exact .refl s
  · exact .refl s

theorem transferExpiry_stores (s : State) : KeepsStores s (transferExpiry s) := by
  unfold transferExpiry
  (repeat' split) <;> exact .of_eq rfl rfl rfl

/-! ### Resets -/

/-- Power-on leaves both dispensers OUT, no stock known and no report (Tables 7-1 and 8-1). -/
theorem powerOn_stores (straps : Straps) (s : State) : KeepsStores s (powerOn straps s) :=
  ⟨fun _ => reset_stocks.still rfl rfl, fun _ => ⟨Nat.zero_le _, nofun, Nat.zero_le _⟩⟩

/-- A pin reset keeps the stocks and offers a report of each live record (R26, R164). -/
theorem assertReset_stores (s : State) : KeepsStores s (assertReset s) := by
  obtain ⟨-, hoffers, hframe⟩ := closeAll_reset s
  refine ⟨fun h => ?_, fun h => ReportQueue.Sound.offers h hoffers⟩
  have hrs : (closeAll s).rs = s.rs := hframe .rs (by simp)
  obtain ⟨hnet, hfilm⟩ : StockInv (closeAll s) := h.still (hframe .ds (by simp)) (by rw [hrs])
  refine ⟨hnet, fun k => ?_⟩
  cases k
  · exact DispenserRecord.Stored.pinReset (hfilm .one)
  · exact DispenserRecord.Stored.pinReset (hfilm .two)

/-! ### Commands on the dispensers, the rolls, the constants and the reports -/

theorem cmdRestoreDispenser_stores (p : Port) (pl : List Byte) (s : State) :
    KeepsStores s (cmdRestoreDispenser p pl s).1 := by
  cases hk : dispenserOfNumber (nat1 pl 0) with
  | none =>
    rw [cmdRestoreDispenser_badValue p hk]
    exact .refl s
  | some k =>
    rw [cmdRestoreDispenser_names p (dispenserNumber_of_some hk)]
    split
    · exact .refl s
    split
    · exact .refl s
    next hstock => exact .of_film k rfl rfl rfl (·.restored hstock)

theorem cmdWithdrawDispenser_stores (p : Port) (pl : List Byte) (s : State) :
    KeepsStores s (cmdWithdrawDispenser p pl s).1 := by
  cases hk : dispenserOfNumber (nat1 pl 0) with
  | none =>
    rw [cmdWithdrawDispenser_badValue p hk]
    exact .refl s
  | some k =>
    rw [cmdWithdrawDispenser_names p (dispenserNumber_of_some hk)]
    exact .of_film k rfl rfl rfl (·.stopped (by decide))

/-- A roll is the net roll or a dispenser's film roll (R146). -/
theorem roll_cases {n : Nat} (h : n ≤ 2) : n = 0 ∨ ∃ k, n = dispenserNumber k :=
  match n, h with
  | 0, _ => .inl rfl
  | 1, _ => .inr ⟨.one, rfl⟩
  | 2, _ => .inr ⟨.two, rfl⟩

theorem cmdNewRoll_stores (p : Port) (pl : List Byte) (s : State) : KeepsStores s (cmdNewRoll p pl s).1 := by
  by_cases hbad : 2 < nat1 pl 0 ∨ nat4 pl 1 = 0
  · rw [cmdNewRoll_badValue p hbad]
    exact .refl s
  obtain ⟨hroll, hlen⟩ := not_or.mp hbad
  rcases roll_cases (Nat.le_of_not_lt hroll) with hnet | ⟨k, hk⟩
  · rw [cmdNewRoll_net p hnet hlen]
    exact ⟨fun ⟨_, hfilm⟩ => ⟨Nat.min_le_right _ _, hfilm⟩, id⟩
  · rw [cmdNewRoll_film p hk hlen]
    exact .of_film k rfl rfl rfl (·.newRoll (by omega) (Nat.min_le_right _ _))

/-- A changed `table_pulses` clears the silence counters, so they stay within its quarter (R61). -/
theorem applyConstants_stores (c : Constants) (s : State) : KeepsStores s (applyConstants c s) := by
  by_cases hsame : c.tablePulses = s.rs.constants.tablePulses
  · rw [applyConstants_same hsame]
    exact .of_eq rfl hsame rfl
  · rw [applyConstants_changed hsame]
    exact ⟨fun h => h.cleared rfl, id⟩

theorem cmdSetMachine_stores (p : Port) (pl : List Byte) (s : State) : KeepsStores s (cmdSetMachine p pl s).1 := by
  have hchannel : ∀ ch group, KeepsStores s (setChannelGroup ch group pl s).1 := fun ch group => by
    unfold setChannelGroup
    dsimp only
    split <;> exact .of_eq rfl rfl rfl
  unfold cmdSetMachine
  dsimp only
  (repeat' split) <;> first
    | exact .refl s
    | exact hchannel _ _
    | exact applyConstants_stores _ s

theorem cmdReleaseReport_stores (p : Port) (pl : List Byte) (s : State) :
    KeepsStores s (cmdReleaseReport p pl s).1 := by
  unfold cmdReleaseReport
  split
  · exact .refl s
  split
  · exact .refl s
  · exact .of_queue rfl rfl (·.release)

theorem cmdQueueStatus_stores (p : Port) (pl : List Byte) (s : State) :
    KeepsStores s (cmdQueueStatus p pl s).1 := by
  unfold cmdQueueStatus
  split
  · exact .refl s
  · exact .of_queue rfl rfl id

/-! ### Commands on the records -/

theorem cmdNetStart_stores (p : Port) (pl : List Byte) (s : State) : KeepsStores s (cmdNetStart p pl s).1 := by
  unfold cmdNetStart
  split
  · exact .refl s
  split
  · exact .refl s
  split
  · exact .refl s
  · exact (enterStage_stores .chamber .netting s.startAttempt).after rfl rfl rfl

theorem cmdTip_stores (p : Port) (pl : List Byte) (s : State) : KeepsStores s (cmdTip p pl s).1 := by
  unfold cmdTip
  dsimp only
  (repeat' split) <;> first
    | exact .refl s
    | exact enterStage_stores _ _ s
    | exact (s.flagRecord_stores _ _).trans (enterStage_stores _ _ (flagForcedTip s))

/-- The commands that move or close a record. -/
theorem ownBlock_records_stores (c : Command) (p : Port) (pl : List Byte) (s : State) (hc : c.reachesDrive = true) :
    KeepsStores s (ownBlock c p pl s).1 := by
  cases c with
  | openBale =>
    simp only [ownBlock, cmdOpenBale]
    (repeat' split) <;> first | exact .refl s | exact createRecord_stores _ _ s
  | dumpPrechamber =>
    simp only [ownBlock, cmdDumpPrechamber]
    (repeat' split) <;> first | exact .refl s | exact enterStage_stores _ _ s
  | netStart => exact cmdNetStart_stores p pl s
  | netAbort =>
    simp only [ownBlock, cmdNetAbort]
    (repeat' split) <;> first | exact .refl s | exact returnToForming_stores s
  | requestEject =>
    simp only [ownBlock, cmdRequestEject]
    (repeat' split) <;> first | exact .refl s | exact grantEject_stores false s | exact .of_eq rfl rfl rfl
  | cancelEject =>
    simp only [ownBlock, cmdCancelEject]
    (repeat' split) <;> exact .of_eq rfl rfl rfl
  | discardBale =>
    simp only [ownBlock, cmdDiscardBale]
    (repeat' split) <;> first | exact .refl s | exact closeRecord_stores _ _ s
  | tip => exact cmdTip_stores p pl s
  | abandonWrap =>
    simp only [ownBlock, cmdAbandonWrap]
    split
    · exact .refl s
    · exact (s.flagRecord_stores _ _).trans (enterStage_stores _ _ _)
  | freeTable => exact KeepsStores.after (evalGrant_stores _) rfl rfl rfl
  | _ => cases hc

/-! ### Every command and every row -/

theorem State.setImage_stores (s : State) (p : Port) (img : Option Image) : KeepsStores s (s.setImage p img) :=
  .of_eq (by simp) (by simp) (by simp)

theorem readBaleImage_stores (p : Port) (found : Option Bale) (s : State) :
    KeepsStores s (readBaleImage p found s).1 := by
  cases found with
  | none => exact .refl s
  | some b => exact s.setImage_stores p _

theorem acknowledge_stores (p : Port) (src : Source) (i : Fin 4) (s : State) :
    KeepsStores s (acknowledge p src i s).1 := by
  unfold acknowledge
  dsimp only
  split <;> exact .of_eq rfl rfl rfl

theorem ownBlock_stores (c : Command) (p : Port) (pl : List Byte) (s : State) :
    KeepsStores s (ownBlock c p pl s).1 := by
  cases c with
  | openBale | dumpPrechamber | netStart | netAbort | requestEject | cancelEject | discardBale | tip | abandonWrap
  | freeTable => exact ownBlock_records_stores _ p pl s rfl
  | restoreDispenser => exact cmdRestoreDispenser_stores p pl s
  | withdrawDispenser => exact cmdWithdrawDispenser_stores p pl s
  | newRoll => exact cmdNewRoll_stores p pl s
  | setMachine => exact cmdSetMachine_stores p pl s
  | releaseReport => exact cmdReleaseReport_stores p pl s
  | queueStatus => exact cmdQueueStatus_stores p pl s
  | identify | readStatus | readStock => exact .refl s
  | takeNotice | setNoticePlan | holdTable => exact .of_eq rfl rfl rfl
  | portReset => cases p <;> exact .of_eq rfl rfl rfl
  | ackNotice =>
    simp only [ownBlock, cmdAckNotice]
    split
    · exact acknowledge_stores _ _ _ s
    · exact .refl s
  | ackCurrent =>
    simp only [ownBlock, cmdAckCurrent]
    split
    · exact acknowledge_stores _ _ _ s
    · exact .refl s
  | readNext =>
    simp only [ownBlock, cmdReadNext]
    (repeat' split) <;> first | exact .refl s | exact s.setImage_stores p _
  | readBale =>
    simp only [ownBlock, cmdReadBale]
    (repeat' split) <;> first | exact .refl s | exact readBaleImage_stores _ _ s
  | readRecipe =>
    simp only [ownBlock, cmdReadRecipe]
    split
    · exact .refl s
    · exact s.setImage_stores p _
  | fetchReport =>
    simp only [ownBlock, cmdFetchReport]
    split
    · exact .refl s
    · exact s.setImage_stores p _
  | readLinkStats =>
    simp only [ownBlock, cmdReadLinkStats]
    (repeat' split) <;> exact .of_eq (by simp) (by simp) (by simp)
  | readChannel => simp only [ownBlock, cmdReadChannel]; split <;> exact .refl s
  | holdZero => simp only [ownBlock, cmdHoldZero]; split <;> exact .of_eq rfl rfl rfl
  | releaseZero => simp only [ownBlock, cmdReleaseZero]; split <;> exact .of_eq rfl rfl rfl
  | prezero => simp only [ownBlock, cmdPrezero]; (repeat' split) <;> exact .of_eq rfl rfl rfl
  | loadRecipe => simp only [ownBlock, cmdLoadRecipe]; split <;> exact .of_eq rfl rfl rfl
  | readMachine => simp only [ownBlock, cmdReadMachine]; (repeat' split) <;> exact .refl s

theorem linkBlocks_stores {s t : State} (h : OnlyChanges linkBlocks s t) : KeepsStores s t :=
  .of_frame h (by simp [linkBlocks, arbiters])

theorem stockInv_keptByRequests : KeptByRequests StockInv :=
  .of_ownBlock (fun h => (linkBlocks_stores h).stock) (fun c p pl s _ => (ownBlock_stores c p pl s).stock)

theorem queueInv_keptByRequests : KeptByRequests QueueInv :=
  .of_ownBlock (fun h => (linkBlocks_stores h).queue) (fun c p pl s _ => (ownBlock_stores c p pl s).queue)

namespace KeepsStores

variable {s t : State}

theorem refresh (h : KeepsStores s t) : KeepsStores s (refreshAttention t) := h.still rfl rfl rfl

/-- A row that leaves the state as it is under nRST. -/
theorem unlessReset (h : KeepsStores s t) : KeepsStores s (if s.nrstAsserted then s else t) := by
  split
  · exact .refl s
  · exact h

end KeepsStores

theorem exec_stores (i : Instr) {s t : State} (he : exec i s = .next t) : KeepsStores s t := by
  cases hi : onLinks i with
  | true =>
    exact ⟨fun h => stockInv_keptByRequests.exec hi h he, fun h => queueInv_keptByRequests.exec hi h he⟩
  | false =>
    cases i with
    | powerOnReset straps => cases he; exact (powerOn_stores straps s).refresh
    | pinResetAssertion => cases he; exact (assertReset_stores s).refresh
    | pinResetRelease straps => cases he; split <;> exact .of_eq rfl rfl rfl
    | runClockTick => cases he; exact .of_eq rfl rfl rfl
    | pdmOutputSlot => cases he; exact .of_eq rfl rfl rfl
    | levelPinChange input asserted => cases he; exact s.modifyLevel_stores input _
    | stabilityTimerExpiry input => cases he; exact (stabilityExpiry_stores input s).refresh
    | tablePulse => cases he; exact (tablePulse_stores s).unlessReset.refresh
    | tableIndex => cases he; exact (tableIndex_stores s).unlessReset.refresh
    | baleRoll => cases he; exact (KeepsStores.of_frame (baleRoll_frame s) (by simp)).unlessReset.refresh
    | netRoll => cases he; exact (netRoll_stores s).unlessReset.refresh
    | filmPulse k => cases he; exact (filmPulse_stores k s).unlessReset.refresh
    | conversionCompletion ch raw =>
      cases he; exact (KeepsStores.of_frame (conversionCompletion_frame ch raw s) (by simp)).refresh
    | zeroDueExpiry ch => cases he; exact (zeroDueExpiry_stores ch s).refresh
    | autoZeroCompletion ch => cases he; exact (autoZeroCompletion_stores ch s).refresh
    | netCatchExpiry => cases he; exact (netCatchExpiry_stores s).refresh
    | transferTimerExpiry => cases he; exact (transferExpiry_stores s).refresh
    | _ => cases hi

theorem step_stores {s t : State} (hstep : step s = .next t) : KeepsStores s t := by
  unfold step at hstep
  split at hstep
  · cases hstep; exact .refl s
  next c rest _ => exact (exec_stores c hstep).after rfl rfl rfl

/-- Settles O58: a lay that empties a known stock ends with its dispenser EMPTY, and what writes a stock, a silence
counter or the queue writes it in range; every other row leaves them. -/
theorem stocksAndReportsStaySound : Obligations.StocksAndReportsStaySound :=
  ⟨fun _ _ h hstep => (step_stores hstep).stock h, fun _ _ h hstep => (step_stores hstep).queue h⟩

end Sys2Proof.Machine
end

section
/-! Proofs. RELEASE REPORT (R161) and QUEUE STATUS (R163): the head's `seq` and the release in the statement's terms, what
each command answers, and the statement. -/

namespace Sys2Proof.Machine

/-! ### The head and its release -/

theorem ReportQueue.headSeq_eq (q : ReportQueue) : q.headSeq = (q.queue.head?.map Bale.seq).getD 0 := by
  unfold ReportQueue.headSeq
  cases q.queue <;> rfl

/-- The head leaves, and the held report, if any, moves to the tail (R161). -/
theorem ReportQueue.release_eq {q : ReportQueue} {r : Bale} {rest : List Bale} (h : q.queue = r :: rest) :
    q.release = { q with queue := rest ++ q.holding.toList, holding := none } := by
  unfold ReportQueue.release
  cases q.holding <;> simp [h]

/-! ### The commands case by case -/

section

variable {p : Port} {pl : List Byte} {s : State} {r : Bale} {rest : List Bale}

theorem cmdReleaseReport_empty (h : s.rq.queue = []) : cmdReleaseReport p pl s = (s, refuse .empty) := by
  simp [cmdReleaseReport, h]

theorem cmdReleaseReport_stale (h : s.rq.queue = r :: rest) (hseq : r.seq ≠ nat2 pl 0) :
    cmdReleaseReport p pl s = (s, ⟨.stale, byte2 r.seq⟩) := by
  simp [cmdReleaseReport, h, hseq]

theorem cmdReleaseReport_releases (h : s.rq.queue = r :: rest) (hseq : r.seq = nat2 pl 0) :
    cmdReleaseReport p pl s = ({ s with rq := s.rq.release },
      answer (byte2 r.seq ++ byte1 s.rq.release.queue.length ++ flag1 s.rq.release.holding.isSome ++
        byte2 s.rq.release.headSeq)) := by
  simp [cmdReleaseReport, h, hseq]

theorem cmdQueueStatus_badValue (h : 1 < nat1 pl 0) : cmdQueueStatus p pl s = (s, refuse .badValue) := if_pos h

theorem cmdQueueStatus_answers (h : nat1 pl 0 ≤ 1) : cmdQueueStatus p pl s =
    ({ s with rq := { s.rq with overrun := s.rq.overrun && decide (nat1 pl 0 = 0) } },
      answer (byte1 s.rq.queue.length ++ flag1 s.rq.holding.isSome ++ byte2 s.rq.lost ++ flag1 s.rq.overrun ++
        byte2 s.rq.headSeq)) := if_neg (Nat.not_lt.mpr h)

/-! ### The requests -/

theorem OnlyChanges.of_rq (s : State) (x : ReportQueue) : OnlyChanges [.rq] s { s with rq := x } := by
  intro k hk
  cases k with
  | arbiter q => exact ⟨rfl, rfl, rfl⟩
  | link q => cases q <;> rfl
  | rq => simp at hk
  | _ => rfl

/-- A request that writes the report queue alone. -/
theorem runs_of_rq {i : Instr} {c : Command} {items : List Byte} {x : ReportQueue}
    (hr : requestRow i = some (p, c.byte, pl)) (hn : s.nrstAsserted = false) (hp : c.permits p = true)
    (hl : c.lengthFits pl = true)
    (hc : ownBlock c p pl (beforeTake p c.byte s) = ({ beforeTake p c.byte s with rq := x }, answer items)) :
    Runs i s (fun t => t.rq = x ∧ Answered p c .ok items t ∧ OnlyChanges (.rq :: takeBlocks p s) s t) :=
  runs_of hr hn hp hl hc ⟨by simp, by simp [Answered, answer, Command.byte],
    request_frame (changed := [.rq]) (.of_rq _ x)⟩

theorem releaseReport_runs (hi lo : Byte) (hn : s.nrstAsserted = false) (h : s.rq.queue = r :: rest)
    (hseq : r.seq = hi.toNat * 256 + lo.toNat) :
    Runs (.releaseReport .c [hi, lo]) s (fun t =>
      t.rq = { s.rq with queue := rest ++ s.rq.holding.toList, holding := none } ∧
      Answered .c .releaseReport .ok (byte2 r.seq ++ byte1 t.rq.queue.length ++ byte1 0 ++
        byte2 ((t.rq.queue.head?.map Bale.seq).getD 0)) t ∧
      OnlyChanges (.rq :: takeBlocks .c s) s t) := by
  have hblock := cmdReleaseReport_releases (p := .c) (s := beforeTake .c Command.releaseReport.byte s)
    (by rwa [beforeTake_rq]) (hseq.trans (nat2_pair hi lo).symm)
  rw [beforeTake_rq, ReportQueue.headSeq_eq, ReportQueue.release_eq h] at hblock
  refine Runs.imp (runs_of_rq (c := .releaseReport) rfl hn rfl rfl hblock) fun t ⟨hrq, hanswer, hframe⟩ => ?_
  rw [hrq]
  exact ⟨rfl, hanswer, hframe⟩

end

/-! ### The statement -/

/-- Settles O51: the two checks of the head, then the release; the flag's check, then the figures as they stood. -/
theorem releaseReportAndQueueStatus : Obligations.ReleaseReportAndQueueStatus := by
  refine fun s hn => ⟨fun hi lo => ⟨fun hempty => ?_, fun r rest hqueue => ⟨fun hseq => ?_, ?_⟩⟩,
    fun p f => ⟨fun hbad => ?_, fun hflag => ?_⟩⟩
  · exact refused_of (c := .releaseReport) rfl hn rfl rfl (cmdReleaseReport_empty (p := .c) (by rwa [beforeTake_rq]))
  · exact runs_of (c := .releaseReport) rfl hn rfl rfl
      (cmdReleaseReport_stale (p := .c) (by rwa [beforeTake_rq]) (by rwa [nat2_pair]))
      ⟨by simp [Answered, Command.byte], by simpa using request_frame (changed := []) (.refl _ _)⟩
  · exact releaseReport_runs hi lo hn hqueue
  · exact refused_of (c := .queueStatus) rfl hn (by cases p <;> rfl) rfl (cmdQueueStatus_badValue (p := p) hbad)
  · have hblock := cmdQueueStatus_answers (p := p) (pl := [f]) (s := beforeTake p Command.queueStatus.byte s) hflag
    rw [beforeTake_rq, ReportQueue.headSeq_eq] at hblock
    exact runs_of_rq (c := .queueStatus) rfl hn (by cases p <;> rfl) rfl hblock

end Sys2Proof.Machine
end

section
/-! Proofs. The bids of a port (R170): what bids, with which priority, and that the winner is the greatest. -/

namespace Sys2Proof.Machine

/-! ### Conditions and priorities -/

theorem State.seqIn_eq (s : State) (z : Zone) : s.seqIn z = ((s.recordIn z).map Bale.seq).getD 0 := by
  unfold State.seqIn
  cases s.recordIn z <;> rfl

/-- A condition's detail in the statement's terms (R68, R69, R149, R159, R168). -/
theorem State.condition_eq (s : State) (p : Port) (src : Source) : s.condition p src = activeCondition s p src := by
  cases src <;> simp [State.condition, activeCondition, State.seqIn_eq, State.lowStocks_eq]

theorem State.priority_eq (s : State) (p : Port) (src : Source) : s.priority p src =
    if src = .reports then min 255 ((s.na.get p).plan.reportsBase + 8 * s.rq.queue.length)
    else (s.na.get p).plan.priorities.get src := by
  cases src <;> rfl

/-! ### What bids -/

theorem State.mem_noticeOf {s : State} {p : Port} {src : Source} {i : Fin 4} {detail : Option Nat} {n : Notice} :
    n ∈ s.noticeOf p src i detail ↔
      detail = some n.detail ∧ n.source = src ∧ n.inst = i ∧ n.priority = s.priority p src := by
  obtain ⟨source, inst, priority, d⟩ := n
  cases detail with
  | none => simp [State.noticeOf]
  | some d' =>
    simp only [State.noticeOf, List.mem_singleton, Notice.mk.injEq, Option.some.injEq]
    exact ⟨fun ⟨h1, h2, h3, h4⟩ => ⟨h4.symm, h1, h2, h3⟩, fun ⟨h1, h2, h3, h4⟩ => ⟨h2, h3, h4, h1.symm⟩⟩

/-- A source is active with its set latch places, or with its condition as place 0. -/
theorem State.mem_activeNotices {s : State} {p : Port} {src : Source} {n : Notice} :
    n ∈ s.activeNotices p src ↔ n.source = src ∧ n.priority = s.priority p src ∧
      (src.isLatch = true ∧ s.latch p src n.inst = some n.detail ∨
        src.isLatch = false ∧ n.inst = 0 ∧ activeCondition s p src = some n.detail) := by
  have hinst : ∀ i : Fin 4, i = 0 ∨ i = 1 ∨ i = 2 ∨ i = 3 := by decide
  rw [State.activeNotices, ← State.condition_eq]
  cases src.isLatch
  · simp only [Bool.false_eq_true, if_false, State.mem_noticeOf]
    tauto
  · simp only [if_true, List.mem_append, State.mem_noticeOf, State.latch]
    rcases hinst n.inst with h | h | h | h <;> simp [h] <;> tauto

theorem mem_allSources (src : Source) : src ∈ allSources := by cases src <;> decide

theorem State.mem_bidders {s : State} {p : Port} {n : Notice} : n ∈ s.bidders p ↔
    (s.na.get p).plan.mask.get n.source = true ∧ n ∈ s.activeNotices p n.source := by
  simp only [State.bidders, List.mem_flatMap, List.mem_ite_nil_right]
  constructor
  · rintro ⟨src, -, hmask, hn⟩
    have hsource : n.source = src := (State.mem_activeNotices.mp hn).1
    exact hsource ▸ ⟨hmask, hn⟩
  · exact fun hn => ⟨n.source, mem_allSources _, hn⟩

/-! ### No two bids are equal -/

theorem Source.code_range (src : Source) : 1 ≤ src.code ∧ src.code ≤ 15 := by cases src <;> decide

theorem sourceOfCode_code (src : Source) : sourceOfCode src.code = some src := by cases src <;> rfl

theorem Source.code_injective : Function.Injective Source.code := fun a b h =>
  Option.some.inj (by rw [← sourceOfCode_code a, h, sourceOfCode_code])

/-- A bid names its source and its place: they stand in its lowest six bits. -/
theorem Notice.place_eq_of_bid_eq {m n : Notice} (h : m.bid = n.bid) : m.source = n.source ∧ m.inst = n.inst := by
  have hm := m.source.code_range
  have hn := n.source.code_range
  have hmi := m.inst.isLt
  have hni := n.inst.isLt
  unfold Notice.bid at h
  exact ⟨Source.code_injective (by omega), Fin.ext (by omega)⟩

/-- One place, or one condition, has at most one notice. -/
theorem State.noticeOf_pairwise (s : State) (p : Port) (src : Source) (i : Fin 4) (detail : Option Nat)
    (R : Notice → Notice → Prop) : (s.noticeOf p src i detail).Pairwise R := by
  cases detail <;> simp [State.noticeOf]

/-- The notices of one source name different places. -/
theorem State.activeNotices_pairwise (s : State) (p : Port) (src : Source) :
    (s.activeNotices p src).Pairwise (fun m n => m.inst ≠ n.inst) := by
  have happend : ∀ {l : List Notice} {i : Fin 4} {detail : Option Nat}, l.Pairwise (fun m n => m.inst ≠ n.inst) →
      (∀ n ∈ l, n.inst ≠ i) → (l ++ s.noticeOf p src i detail).Pairwise (fun m n => m.inst ≠ n.inst) :=
    fun hl hi => List.pairwise_append.mpr ⟨hl, s.noticeOf_pairwise p src _ _ _, fun m hm n hn => by
      obtain ⟨-, -, hinst, -⟩ := State.mem_noticeOf.mp hn
      exact hinst ▸ hi m hm⟩
  unfold State.activeNotices
  split
  · refine happend (happend (happend (s.noticeOf_pairwise p src 0 _ _) ?_) ?_) ?_ <;>
      (simp only [List.mem_append, State.mem_noticeOf]
       grind)
  · exact s.noticeOf_pairwise p src 0 _ _

/-- No two bids of a port are equal (R170): they differ in their source or in their place. -/
theorem State.bidders_pairwise (s : State) (p : Port) : (s.bidders p).Pairwise (fun m n => m.bid ≠ n.bid) := by
  refine List.pairwise_flatMap.mpr ⟨fun src _ => ?_, ?_⟩
  · split
    · exact (s.activeNotices_pairwise p src).imp fun hinst hbid => hinst (Notice.place_eq_of_bid_eq hbid).2
    · exact List.Pairwise.nil
  · have hsources : allSources.Pairwise (· ≠ ·) := by decide
    refine hsources.imp fun {a b} hab m hm n hn hbid => hab ?_
    obtain ⟨hma, -⟩ := State.mem_activeNotices.mp (List.mem_ite_nil_right.mp hm).2
    obtain ⟨hnb, -⟩ := State.mem_activeNotices.mp (List.mem_ite_nil_right.mp hn).2
    rw [← hma, ← hnb, (Notice.place_eq_of_bid_eq hbid).1]

/-! ### The statement -/

/-- What bids is what is active and in the port's mask. -/
theorem State.exists_bidder_iff (s : State) (p : Port) (src : Source) (i : Fin 4) (d : Nat) :
    (∃ n ∈ s.bidders p, n.source = src ∧ n.inst = i ∧ n.detail = d) ↔
      (s.na.get p).plan.mask.get src = true ∧
        (src.isLatch = true ∧ s.latch p src i = some d ∨
          src.isLatch = false ∧ i = 0 ∧ activeCondition s p src = some d) := by
  simp only [State.mem_bidders, State.mem_activeNotices, true_and]
  constructor
  · rintro ⟨n, ⟨hmask, -, hactive⟩, rfl, rfl, rfl⟩
    exact ⟨hmask, hactive⟩
  · rintro ⟨hmask, hactive⟩
    exact ⟨⟨src, i, s.priority p src, d⟩, ⟨hmask, rfl, hactive⟩, rfl, rfl, rfl⟩

/-- Settles O35: the greatest bid by the recursion over the list; the list itself by the places and the conditions. -/
theorem winnerIsTheGreatestBid : Obligations.WinnerIsTheGreatestBid := by
  refine fun s p => ⟨fun hnone => greatestBid_eq_none.mpr hnone, fun hsome => ?_, s.bidders_pairwise p, fun n hn => ?_,
    s.exists_bidder_iff p⟩
  · obtain ⟨n, hwins⟩ := Option.ne_none_iff_exists'.mp fun hnone => hsome (greatestBid_eq_none.mp hnone)
    obtain ⟨hbids, hgreatest⟩ := greatestBid_spec hwins
    exact ⟨n, hbids, hwins, fun m hm => ⟨Notice.priority_le_of_bid_le (hgreatest m hm), hgreatest m hm⟩⟩
  · obtain ⟨-, hpriority, -⟩ := State.mem_activeNotices.mp (State.mem_bidders.mp hn).2
    have hcode := n.source.code_range
    have hinst := n.inst.isLt
    unfold Notice.bid
    exact ⟨hpriority.trans (s.priority_eq p _), by omega, fun _ => by omega⟩

end Sys2Proof.Machine
end

section
/-! Proofs. The attention lines (R171): every row but the run clock's, the output slot's and a level pin's brings them into
line at its end, and those three touch nothing that bids. -/

namespace Sys2Proof.Machine

theorem refreshAttention_attentionInv (s : State) : AttentionInv (refreshAttention s) := by
  intro p
  rw [refreshAttention_attention, refreshAttention_bidders, refreshAttention_plan, State.raised_iff]
  rfl

/-- The bids read the arbiters, the report queue and the conditions alone. -/
theorem State.bidders_congr {s t : State} (hna : t.na = s.na) (hrq : t.rq = s.rq)
    (hcondition : ∀ p src, t.condition p src = s.condition p src) (p : Port) : t.bidders p = s.bidders p := by
  simp only [State.bidders, State.activeNotices, State.noticeOf, State.priority_eq, hna, hrq, hcondition]

/-- A step that touches nothing that bids leaves the lines true. -/
theorem AttentionInv.still {s t : State} (h : AttentionInv s) (hn : t.nrstAsserted = s.nrstAsserted)
    (hna : t.na = s.na) (hrq : t.rq = s.rq) (hcondition : ∀ p src, t.condition p src = s.condition p src) :
    AttentionInv t := by
  intro p
  rw [State.bidders_congr hna hrq hcondition, hna, hn]
  exact h p

/-- STOP's condition follows its filtered level, which a pin event leaves (R43). -/
theorem pinTo_condition (i : LevelInput) (v : Bool) (s : State) (p : Port) (src : Source) :
    (s.modifyLevel i (·.pinTo v)).condition p src = s.condition p src := by
  cases i with
  | stop =>
    cases src with
    | stop => simp [State.condition, State.modifyLevel, LevelLine.pinTo_filtered]
    | _ => rfl
  | tailgate => cases src <;> rfl
  | tableLoaded => cases src <;> rfl

theorem exec_attention {i : Instr} {s t : State} (h : AttentionInv s) (he : exec i s = .next t) : AttentionInv t := by
  cases i with
  | runClockTick => cases he; exact h.still rfl rfl rfl fun _ _ => rfl
  | pdmOutputSlot => cases he; exact h.still rfl rfl rfl fun _ _ => rfl
  | levelPinChange input asserted =>
    cases he
    exact h.still (by simp) (by simp) (by simp) (pinTo_condition input asserted s)
  | _ => cases he; exact refreshAttention_attentionInv _

/-- Settles O53: a row brings the lines into line with R171, or leaves all that they follow. -/
theorem attentionIsKept : Obligations.AttentionIsKept := by
  intro s t h hstep
  unfold step at hstep
  split at hstep
  · cases hstep; exact h
  next c rest _ =>
    exact exec_attention (s := { s with pending := rest }) (h.still rfl rfl rfl fun _ _ => rfl) hstep

end Sys2Proof.Machine
end

section
/-! Proofs. The requests on notices: TAKE NOTICE (R172), ACK NOTICE and ACK CURRENT (R174, R175), SET NOTICE PLAN (R177,
R178). Each block changes one part of the sending port's arbiter. -/

namespace Sys2Proof.Machine

/-! ### One arbiter changed -/

section

variable (s : State) (p q : Port)

theorem State.modifyArbiter_get (f : Arbiter → Arbiter) :
    (s.modifyArbiter p f).na.get q = if q = p then f (s.na.get p) else s.na.get q := PerPort.get_set _ _ _ _

theorem State.modifyArbiter_frame (f : Arbiter → Arbiter) : OnlyChanges [.arbiter p] s (s.modifyArbiter p f) := by
  intro k hk
  cases k with
  | arbiter q =>
    refine Block.same_arbiter ?_
    rw [State.modifyArbiter_get, if_neg (by rintro rfl; simp at hk)]
  | link q => cases q <;> rfl
  | _ => rfl

variable {f : Arbiter → Arbiter}

/-- A part of the arbiter that the change keeps is kept on every port. -/
theorem State.modifyArbiter_kept {α : Type} {part : Arbiter → α} (hf : part (f (s.na.get p)) = part (s.na.get p)) :
    part ((s.modifyArbiter p f).na.get q) = part (s.na.get q) := by
  rw [State.modifyArbiter_get]
  split
  next h => rw [h, hf]
  next => rfl

theorem State.modifyArbiter_latch (hf : (f (s.na.get p)).latches = (s.na.get p).latches) (src : Source) (i : Fin 4) :
    (s.modifyArbiter p f).latch q src i = s.latch q src i := by
  rw [State.latch, s.modifyArbiter_kept p q hf]
  rfl

theorem State.writeLatch_latch (src src' : Source) (i i' : Fin 4) (v : Option Nat) :
    (s.writeLatch p src i v).latch q src' i' = if q = p ∧ src' = src ∧ i' = i then v else s.latch q src' i' := by
  rw [State.latch, State.writeLatch, State.modifyArbiter_get]
  by_cases hq : q = p
  · subst hq
    by_cases hs : src' = src
    · subst hs
      simp [State.latch, writePlace]
    · simp [State.latch, writePlace, hs]
  · simp [State.latch, hq]

end

/-! ### The arbiters as a request leaves them -/

section

variable (p q : Port) (r : Response) (v : State)

@[simp] theorem after_plan : ((refreshAttention (deliver p r v)).na.get q).plan = (v.na.get q).plan := by
  cases p <;> cases q <;> rfl

@[simp] theorem after_current : ((refreshAttention (deliver p r v)).na.get q).current = (v.na.get q).current := by
  cases p <;> cases q <;> rfl

@[simp] theorem after_latch (src : Source) (i : Fin 4) :
    (refreshAttention (deliver p r v)).latch q src i = v.latch q src i := by
  cases p <;> cases q <;> rfl

/-- The response and the line itself bear on no bid. -/
@[simp] theorem after_raised : (refreshAttention (deliver p r v)).raised q = v.raised q := by
  cases p <;> cases q <;> rfl

/-- The answer a block composed is the one the port carries. -/
theorem answered_deliver (c : Command) (items : List Byte) :
    Answered p c .ok items (refreshAttention (deliver p ⟨c.byte, answer items⟩ v)) := by
  rw [Answered, responseOn_refreshAttention, responseOn_deliver]
  rfl

end

theorem beforeTake_plan (p q : Port) (code : Byte) (s : State) :
    ((beforeTake p code s).na.get q).plan = (s.na.get q).plan := (beforeTake_plan_current p q code s).1

theorem beforeTake_current (p q : Port) (code : Byte) (s : State) :
    ((beforeTake p code s).na.get q).current = (s.na.get q).current := (beforeTake_plan_current p q code s).2

/-! ### TAKE NOTICE (R172) -/

theorem State.offered_above {s : State} {p : Port} {n : Notice} (hwins : s.winner p = some n)
    (habove : (s.na.get p).plan.threshold < n.priority) : s.offered p = some n := by
  simp [State.offered, hwins, Option.filter, habove]

theorem State.offered_none {s : State} {p : Port}
    (hbelow : ∀ n, s.winner p = some n → n.priority ≤ (s.na.get p).plan.threshold) : s.offered p = none := by
  simpa [State.offered, Option.filter_eq_none_iff] using hbelow

/-- TAKE NOTICE captures what is offered and returns it with the line, which is asserted exactly if something is. -/
theorem takeNotice_captures (p : Port) {s : State} (hn : s.nrstAsserted = false) :
    Runs (.takeNotice p []) s (fun t =>
      (t.na.get p).current = (beforeTake p 0x08 s).offered p ∧
      Answered p .takeNotice .ok (noticeBytes ((beforeTake p 0x08 s).offered p) ++
        flag1 ((beforeTake p 0x08 s).offered p).isSome) t ∧
      (∀ q src i, t.latch q src i = (beforeTake p 0x08 s).latch q src i) ∧
      (∀ q, (t.na.get q).plan = (s.na.get q).plan ∧ (q ≠ p → (t.na.get q).current = (s.na.get q).current)) ∧
      OnlyChanges (.arbiter p :: takeBlocks p s) s t) := by
  let u := beforeTake p 0x08 s
  have hraised : u.raised p = (u.offered p).isSome := by simp [State.raised, u, hn]
  refine runs_of (c := .takeNotice) (v := u.modifyArbiter p (fun a => { a with current := u.offered p })) rfl hn
    (by cases p <;> rfl) rfl rfl ?_
  simp only [after_current, after_latch, after_plan]
  refine ⟨?_, ?_, fun q src i => u.modifyArbiter_latch p q rfl src i, fun q => ⟨?_, fun hq => ?_⟩,
    request_frame (u.modifyArbiter_frame p _)⟩
  · rw [State.modifyArbiter_get, if_pos rfl]
  · rw [← hraised]
    exact answered_deliver p _ .takeNotice _
  · rw [u.modifyArbiter_kept p q (part := Arbiter.plan) rfl, beforeTake_plan]
  · rw [State.modifyArbiter_get, if_neg hq, beforeTake_current]

/-- Settles O36: what is offered is the winner where it is above the threshold, and NONE otherwise. -/
theorem takeNotice : Obligations.TakeNotice := by
  intro p s hn
  have hthreshold : ((beforeTake p 0x08 s).na.get p).plan.threshold = (s.na.get p).plan.threshold := by
    rw [beforeTake_plan]
  refine (takeNotice_captures p hn).imp fun t ⟨hcurrent, hanswer, hkept⟩ =>
    ⟨fun n hwins habove => ?_, fun hbelow => ?_, hkept⟩
  · rw [State.offered_above hwins (hthreshold ▸ habove)] at hcurrent hanswer
    exact ⟨hcurrent, hanswer⟩
  · rw [State.offered_none (hthreshold ▸ hbelow)] at hcurrent hanswer
    exact ⟨hcurrent, hanswer⟩

/-! ### ACK NOTICE and ACK CURRENT (R174, R175) -/

theorem sourceOfCode_none {n : Nat} (h : n = 0 ∨ 15 < n) : sourceOfCode n = none := by
  refine List.find?_eq_none.mpr fun src _ => ?_
  have hcode := src.code_range
  simp only [beq_iff_eq]
  omega

theorem instOfNumber_val (i : Fin 4) : instOfNumber i.val = some i := dif_pos i.isLt

theorem instOfNumber_none {n : Nat} (h : 3 < n) : instOfNumber n = none := dif_neg (by omega)

section

variable (p q : Port) (src : Source) (i : Fin 4) (s : State)

/-- A set place is cleared; a clear place and a condition leave the state (R174). -/
theorem acknowledge_cases : (s.placeSet p src i = true ∧ (acknowledge p src i s).1 = s.writeLatch p src i none) ∨
    (s.placeSet p src i = false ∧ (acknowledge p src i s).1 = s) := by
  unfold acknowledge
  cases s.placeSet p src i
  · exact .inr ⟨rfl, rfl⟩
  · exact .inl ⟨rfl, rfl⟩

theorem acknowledge_frame : OnlyChanges [.arbiter p] s (acknowledge p src i s).1 := by
  rcases acknowledge_cases p src i s with ⟨-, h⟩ | ⟨-, h⟩ <;> rw [h]
  · exact s.modifyArbiter_frame p _
  · exact .refl _ s

theorem acknowledge_plan : ((acknowledge p src i s).1.na.get q).plan = (s.na.get q).plan := by
  rcases acknowledge_cases p src i s with ⟨-, h⟩ | ⟨-, h⟩ <;> rw [h]
  exact s.modifyArbiter_kept p q (part := Arbiter.plan) rfl

theorem acknowledge_current : ((acknowledge p src i s).1.na.get q).current = (s.na.get q).current := by
  rcases acknowledge_cases p src i s with ⟨-, h⟩ | ⟨-, h⟩ <;> rw [h]
  exact s.modifyArbiter_kept p q (part := Arbiter.current) rfl

theorem acknowledge_latch (src' : Source) (i' : Fin 4) : (acknowledge p src i s).1.latch q src' i' =
    if q = p ∧ src' = src ∧ i' = i ∧ src.isLatch = true then none else s.latch q src' i' := by
  rcases acknowledge_cases p src i s with ⟨hset, h⟩ | ⟨hclear, h⟩ <;> rw [h]
  · have hlatch : src.isLatch = true := (Bool.and_eq_true_iff.mp hset).1
    simp only [State.writeLatch_latch, hlatch, and_true]
  · split
    next hplace =>
      obtain ⟨rfl, rfl, rfl, hlatch⟩ := hplace
      simpa [State.placeSet, State.latch, hlatch] using hclear
    next => rfl

end

/-- A request whose block acknowledges a place of a source. -/
theorem runs_of_acknowledge {instr : Instr} {p : Port} {c : Command} {pl : List Byte} {src : Source} {i : Fin 4}
    {s : State} (hr : requestRow instr = some (p, c.byte, pl)) (hn : s.nrstAsserted = false)
    (hp : c.permits p = true) (hl : c.lengthFits pl = true)
    (hc : ownBlock c p pl (beforeTake p c.byte s) = acknowledge p src i (beforeTake p c.byte s)) :
    Runs instr s (Acknowledges p c src i (beforeTake p c.byte s) s) := by
  let u := beforeTake p c.byte s
  refine runs_of (v := (acknowledge p src i u).1) (reply := (acknowledge p src i u).2) hr hn hp hl hc
    ⟨fun q src' i' => ?_, fun q => ⟨?_, ?_⟩, ?_, request_frame (acknowledge_frame p src i u)⟩
  · rw [after_latch, acknowledge_latch]
  · rw [after_plan, acknowledge_plan, beforeTake_plan]
  · rw [after_current, acknowledge_current, beforeTake_current]
  · rw [after_raised]
    exact answered_deliver p _ c _

theorem cmdAckNotice_badValue {p : Port} {a b : Byte} {s : State}
    (h : a.toNat = 0 ∨ 15 < a.toNat ∨ 3 < b.toNat) : cmdAckNotice p [a, b] s = (s, refuse .badValue) := by
  unfold cmdAckNotice
  rcases or_assoc.mpr h with hsource | hinst
  · rw [show sourceOfCode (nat1 [a, b] 0) = none from sourceOfCode_none hsource]
  · rw [show instOfNumber (nat1 [a, b] 1) = none from instOfNumber_none hinst]
    cases sourceOfCode (nat1 [a, b] 0) <;> rfl

theorem cmdAckNotice_acknowledges {p : Port} {a b : Byte} {src : Source} {i : Fin 4} {s : State}
    (ha : a.toNat = src.code) (hb : b.toNat = i.val) : cmdAckNotice p [a, b] s = acknowledge p src i s := by
  have hsource : sourceOfCode (nat1 [a, b] 0) = some src := (congrArg sourceOfCode ha).trans (sourceOfCode_code src)
  have hinst : instOfNumber (nat1 [a, b] 1) = some i := (congrArg instOfNumber hb).trans (instOfNumber_val i)
  simp [cmdAckNotice, hsource, hinst]

/-! ### SET NOTICE PLAN (R177, R178) -/

/-- The alter marks of SET NOTICE PLAN, three bytes of its payload (section 10.4). -/
def alterMarks (pl : List Byte) : Nat := nat1 pl 0 * 65536 + nat2 pl 1

/-- Marks 16 and up stand in the first byte. -/
theorem alterMarks_testBit_high (pl : List Byte) (k : Nat) :
    (alterMarks pl).testBit (16 + k) = (pl.getD 0 0).getLsbD k := by
  have hlow : nat2 pl 1 < 2 ^ 16 := nat2_lt pl 1
  rw [alterMarks, Nat.mul_comm, show 65536 = 2 ^ 16 from rfl, Nat.testBit_two_pow_mul_add _ hlow,
    if_neg (by omega), Nat.add_sub_cancel_left]
  rfl

/-- Mark 0 stands in the last byte. -/
theorem alterMarks_testBit_zero (pl : List Byte) : (alterMarks pl).testBit 0 = (pl.getD 2 0).getLsbD 0 := by
  have hparity : alterMarks pl % 2 = nat1 pl 2 % 2 := by
    simp only [alterMarks, nat2, Nat.reduceAdd]
    omega
  rw [Nat.testBit_zero, hparity, ← Nat.testBit_zero]
  rfl

/-- The altered plan, item by item, its marks as they stand in the payload (R177). -/
theorem alterPlan_eq (old : NoticePlan) (pl : List Byte) : alterPlan old pl =
    { mask := if (pl.getD 2 0).getLsbD 0 then PerSource.make (fun src => (nat2 pl 3).testBit src.code) else old.mask
      priorities := PerSource.make (fun src =>
        if src = .reports then old.priorities.get src
        else if (alterMarks pl).testBit src.code then nat1 pl (4 + src.code) else old.priorities.get src)
      reportsBase := if (pl.getD 0 0).getLsbD 0 then nat1 pl 20 else old.reportsBase
      trigger := if (pl.getD 0 0).getLsbD 1 then roundedUp [1, 4, 8, 12] 16 (nat1 pl 21) else old.trigger
      threshold := if (pl.getD 0 0).getLsbD 2 then nat1 pl 22 else old.threshold } := by
  rw [← alterMarks_testBit_zero, ← alterMarks_testBit_high, ← alterMarks_testBit_high, ← alterMarks_testBit_high]
  simp only [alterPlan, hasMark_eq, legalTrigger_eq]
  rfl

theorem triggerReplaced_eq (pl : List Byte) : triggerReplaced pl =
    ((pl.getD 0 0).getLsbD 1 && decide (roundedUp [1, 4, 8, 12] 16 (nat1 pl 21) ≠ nat1 pl 21)) := by
  rw [← alterMarks_testBit_high, triggerReplaced, hasMark_eq, legalTrigger_eq]
  rfl

/-- The state with a port's plan written; the free value it answers with is used up (log entry 8). -/
def State.withPlan (s : State) (p : Port) (plan : NoticePlan) : State :=
  { s.modifyArbiter p (fun a => { a with plan := plan }) with freeCount := s.freeCount + 1 }

theorem cmdSetNoticePlan_eq (p : Port) (pl : List Byte) (s : State) : cmdSetNoticePlan p pl s =
    (s.withPlan p (alterPlan (s.na.get p).plan pl),
      answer (planBytes (alterPlan (s.na.get p).plan pl) (Config.freeByte s.freeCount) ++ flag1 (triggerReplaced pl) ++
        flag1 ((s.withPlan p (alterPlan (s.na.get p).plan pl)).raised p))) := rfl

theorem State.withPlan_frame (s : State) (p : Port) (plan : NoticePlan) :
    OnlyChanges [.arbiter p, .freeCount] s (s.withPlan p plan) := by
  intro k hk
  have hkept := s.modifyArbiter_frame p (fun a => { a with plan := plan }) k
  cases k with
  | arbiter q => exact hkept (by simpa using hk)
  | link q => cases q <;> rfl
  | freeCount => simp at hk
  | _ => rfl

theorem State.withPlan_plan (s : State) (p : Port) (plan : NoticePlan) :
    ((s.withPlan p plan).na.get p).plan = plan := by cases p <;> rfl

theorem State.withPlan_current (s : State) (p q : Port) (plan : NoticePlan) :
    ((s.withPlan p plan).na.get q).current = (s.na.get q).current :=
  s.modifyArbiter_kept p q (part := Arbiter.current) (f := fun a => { a with plan := plan }) rfl

theorem State.withPlan_latch (s : State) (p q : Port) (plan : NoticePlan) (src : Source) (i : Fin 4) :
    (s.withPlan p plan).latch q src i = s.latch q src i :=
  s.modifyArbiter_latch p q (f := fun a => { a with plan := plan }) rfl src i

/-- Settles O38: the plan item by item, and the arbiter's other parts as they were. -/
theorem setNoticePlan : Obligations.SetNoticePlan := by
  intro p pl s hn hl
  let u := beforeTake p Command.setNoticePlan.byte s
  have hplan : (u.na.get p).plan = (s.na.get p).plan := beforeTake_plan p p _ s
  refine runs_of (c := .setNoticePlan) rfl hn (by cases p <;> rfl) (by simp [Command.lengthFits, hl])
    (cmdSetNoticePlan_eq p pl u) ?_
  simp only [after_plan, after_current, after_latch, after_raised, State.withPlan_plan, hplan, triggerReplaced_eq]
  refine ⟨fun src => ?_, fun src hsrc => ?_, by rw [alterPlan_eq], by rw [alterPlan_eq], by rw [alterPlan_eq],
    ⟨_, answered_deliver p _ .setNoticePlan _⟩, ?_, fun q src i => u.withPlan_latch p q _ src i,
    request_frame (u.withPlan_frame p _)⟩
  · rw [alterPlan_eq]
    split <;> simp
  · rw [alterPlan_eq, PerSource.get_make, if_neg hsrc]
    rfl
  · rw [State.withPlan_current, beforeTake_current]

end Sys2Proof.Machine

namespace Sys2Proof.Proofs

open Machine

/-- Settles O37: both commands acknowledge, ACK NOTICE what its payload names and ACK CURRENT the current notice, which
the taking of the request leaves. -/
theorem acknowledge : Obligations.Acknowledge := by
  intro p s hn
  have hcurrent : ((beforeTake p Command.ackCurrent.byte s).na.get p).current = (s.na.get p).current :=
    beforeTake_current p p _ s
  refine ⟨fun a b hbad => ?_, fun a b src i ha hb => ?_, fun hnone => ?_, fun n hsome => ?_⟩
  · exact refused_of (c := .ackNotice) rfl hn (by cases p <;> rfl) rfl (cmdAckNotice_badValue (p := p) hbad)
  · exact runs_of_acknowledge (c := .ackNotice) rfl hn (by cases p <;> rfl) rfl
      (cmdAckNotice_acknowledges (p := p) ha hb)
  · refine refused_of (c := .ackCurrent) rfl hn (by cases p <;> rfl) rfl ?_
    simp [ownBlock, cmdAckCurrent, hcurrent, hnone]
  · refine runs_of_acknowledge (c := .ackCurrent) rfl hn (by cases p <;> rfl) rfl ?_
    simp [ownBlock, cmdAckCurrent, hcurrent, hsome]

end Sys2Proof.Proofs
end

section
/-! Proofs. What an owning block touches (R192): its own blocks and, for the six commands on a link unit, the unit of
the sending port; and that no row touches the queue of steps. -/

namespace Sys2Proof.Machine

/-! ### The frame of an owning block -/

/-- What commands work on beside the link units. The queue of steps, nRST and the straps are no command's. -/
def ownedBlocks : List Block := .mf :: .mi :: .rs :: .freeCount :: recordBlocks

theorem onlyChanges_ownedBlocks_iff {s t : State} : OnlyChanges ownedBlocks s t ↔
    t.pending = s.pending ∧ t.nrstAsserted = s.nrstAsserted ∧ t.straps = s.straps ∧
      t.la = s.la ∧ t.lb = s.lb ∧ t.lc = s.lc := by
  constructor
  · intro h
    have hkept : ∀ k, k ∉ ownedBlocks → k.same s t := h
    refine ⟨hkept .pending ?_, hkept .nrst ?_, hkept .straps ?_, hkept (.link .a) ?_, hkept (.link .b) ?_,
      hkept (.link .c) ?_⟩ <;> decide
  · rintro ⟨hpending, hnrst, hstraps, ha, hb, hc⟩ k hk
    cases k with
    | pending => exact hpending
    | nrst => exact hnrst
    | straps => exact hstraps
    | link q => cases q <;> assumption
    | arbiter q => cases q <;> exact absurd (by decide) hk
    | _ => exact absurd (by decide) hk

/-- The commands that reach a link unit: those that send an image, READ LINK STATS and PORT RESET. -/
def Command.reachesLink : Command → Bool
  | .readNext | .readBale | .readRecipe | .fetchReport | .readLinkStats | .portReset => true
  | _ => false

/-- A command that reaches no link unit touches nothing but the blocks commands work on. -/
theorem ownBlock_owned {c : Command} (hc : c.reachesLink = false) (p : Port) (pl : List Byte) (s : State) :
    OnlyChanges ownedBlocks s (ownBlock c p pl s).1 := by
  rw [onlyChanges_ownedBlocks_iff]
  cases c with
  | readNext | readBale | readRecipe | fetchReport | readLinkStats | portReset => cases hc
  | identify | readStatus | takeNotice | setNoticePlan | readStock | holdTable => exact ⟨rfl, rfl, rfl, rfl, rfl, rfl⟩
  | ackNotice => simp only [ownBlock, cmdAckNotice, acknowledge]; (repeat' split) <;> simp
  | ackCurrent => simp only [ownBlock, cmdAckCurrent, acknowledge]; (repeat' split) <;> simp
  | readChannel => simp only [ownBlock, cmdReadChannel]; split <;> simp
  | holdZero => simp only [ownBlock, cmdHoldZero]; split <;> simp
  | releaseZero => simp only [ownBlock, cmdReleaseZero]; split <;> simp
  | prezero => simp only [ownBlock, cmdPrezero]; (repeat' split) <;> simp
  | openBale => simp only [ownBlock, cmdOpenBale]; (repeat' split) <;> simp
  | dumpPrechamber => simp only [ownBlock, cmdDumpPrechamber]; (repeat' split) <;> simp
  | netStart => simp only [ownBlock, cmdNetStart]; (repeat' split) <;> simp
  | netAbort => simp only [ownBlock, cmdNetAbort]; (repeat' split) <;> simp
  | requestEject => simp only [ownBlock, cmdRequestEject, placeRequest]; (repeat' split) <;> simp
  | cancelEject => simp only [ownBlock, cmdCancelEject, withdrawRequest]; (repeat' split) <;> simp
  | discardBale => simp only [ownBlock, cmdDiscardBale]; (repeat' split) <;> simp
  | tip => simp only [ownBlock, cmdTip, flagForcedTip]; (repeat' split) <;> simp
  | abandonWrap => simp only [ownBlock, cmdAbandonWrap]; split <;> simp
  | restoreDispenser => simp only [ownBlock, cmdRestoreDispenser]; (repeat' split) <;> simp
  | withdrawDispenser => simp only [ownBlock, cmdWithdrawDispenser]; split <;> simp
  | freeTable => simp [ownBlock, cmdFreeTable]
  | loadRecipe => simp only [ownBlock, cmdLoadRecipe]; split <;> simp
  | setMachine =>
    simp only [ownBlock, cmdSetMachine, setChannelGroup, setConstantsGroup, applyConstants]
    (repeat' split) <;> simp
  | readMachine => simp only [ownBlock, cmdReadMachine]; (repeat' split) <;> simp
  | newRoll => simp only [ownBlock, cmdNewRoll]; (repeat' split) <;> simp
  | releaseReport => simp only [ownBlock, cmdReleaseReport]; (repeat' split) <;> simp
  | queueStatus => simp only [ownBlock, cmdQueueStatus]; split <;> simp

theorem State.setImage_link (s : State) (p : Port) (img : Option Image) :
    OnlyChanges [.link p] s (s.setImage p img) := by
  intro k hk
  cases k with
  | arbiter q => cases p <;> exact ⟨rfl, rfl, rfl⟩
  | link q => cases p <;> cases q <;> first | rfl | simp at hk
  | _ => cases p <;> rfl

theorem clearErrorLatch_link (p : Port) (s : State) : OnlyChanges [.link p] s (clearErrorLatch p s) := by
  intro k hk
  cases k with
  | arbiter q => cases p <;> exact ⟨rfl, rfl, rfl⟩
  | link q => cases p <;> cases q <;> first | rfl | simp at hk
  | _ => cases p <;> rfl

/-- A command that sends an image changes the port's image, or nothing. -/
theorem ownBlock_sendsImage {c : Command} (hc : c ∈ [.readNext, .readBale, .readRecipe, .fetchReport]) (p : Port)
    (pl : List Byte) (s : State) :
    (ownBlock c p pl s).1 = s ∨ ∃ img, (ownBlock c p pl s).1 = s.setImage p img := by
  simp only [List.mem_cons, List.not_mem_nil, or_false] at hc
  rcases hc with rfl | rfl | rfl | rfl
  all_goals
    simp only [ownBlock, cmdReadNext, cmdReadBale, readBaleImage, cmdReadRecipe, cmdFetchReport, takeImage]
    (repeat' split) <;> first
      | exact .inl rfl
      | exact .inr ⟨_, rfl⟩

/-- READ LINK STATS clears at most the error latch. -/
theorem cmdReadLinkStats_state (p : Port) (pl : List Byte) (s : State) :
    (cmdReadLinkStats p pl s).1 = s ∨ (cmdReadLinkStats p pl s).1 = clearErrorLatch p s := by
  unfold cmdReadLinkStats
  split
  · exact .inl rfl
  dsimp only
  split
  · exact .inr rfl
  · exact .inl rfl

/-- Whatever the command, its block touches no link unit but the sending port's. -/
theorem ownBlock_frame (c : Command) (p : Port) (pl : List Byte) (s : State) :
    OnlyChanges (.link p :: ownedBlocks) s (ownBlock c p pl s).1 := by
  have hsends : c ∈ [.readNext, .readBale, .readRecipe, .fetchReport] →
      OnlyChanges (.link p :: ownedBlocks) s (ownBlock c p pl s).1 := fun hc => by
    rcases ownBlock_sendsImage hc p pl s with h | ⟨img, h⟩ <;> rw [h]
    · exact .refl _ s
    · exact (s.setImage_link p img).mono (by simp)
  cases hc : c.reachesLink with
  | false => exact (ownBlock_owned hc p pl s).mono (by simp +contextual)
  | true =>
    cases c with
    | readNext | readBale | readRecipe | fetchReport => exact hsends (by simp)
    | readLinkStats =>
      show OnlyChanges _ s (cmdReadLinkStats p pl s).1
      rcases cmdReadLinkStats_state p pl s with h | h <;> rw [h]
      · exact .refl _ s
      · exact (clearErrorLatch_link p s).mono (by simp)
    | portReset => exact (cmdPortReset_frame p pl s).mono (by cases p <;> simp [ownedBlocks, recordBlocks, arbiters])
    | _ => cases hc

theorem carryOutCode_frame (p : Port) (code : Byte) (pl : List Byte) (s : State) :
    OnlyChanges (.link p :: ownedBlocks) s (carryOutCode p code pl s).1 := by
  unfold carryOutCode carryOut
  (repeat' split) <;> first
    | exact .refl _ s
    | exact ownBlock_frame _ p pl s

/-! ### The queue of steps -/

theorem queue_keptByRequests (queue : List Instr) : KeptByRequests (fun s => s.pending = queue) :=
  .of_ownBlock (fun hframe h => (hframe .pending (by decide)).trans h)
    (fun c p pl s _ h => (ownBlock_frame c p pl s .pending (by cases p <;> decide)).trans h)

theorem foldl_closeRecord_pending (bales : List Bale) (s : State) :
    (bales.foldl (fun t b => closeRecord b.stage.zone .reset t) s).pending = s.pending := by
  induction bales generalizing s with
  | nil => rfl
  | cons b bales ih => rw [List.foldl_cons, ih, closeRecord_pending]

theorem stabilityExpiry_pending (i : LevelInput) (s : State) : (stabilityExpiry i s).pending = s.pending := by
  unfold stabilityExpiry
  dsimp only
  split
  · rfl
  split
  · exact s.modifyLevel_pending i _
  · exact (levelArrival_frame i _ _ .pending (by decide)).trans (s.modifyLevel_pending i _)

theorem netRoll_pending (s : State) : (netRoll s).pending = s.pending := by
  show (meterNet s).pending = s.pending
  unfold meterNet
  split
  · split
    · dsimp only
      split
      · simp [completeNetting]
      · rfl
    · rfl
  · rfl

theorem zeroDueExpiry_pending (ch : Channel) (s : State) : (zeroDueExpiry ch s).pending = s.pending := by
  unfold zeroDueExpiry
  (repeat' split) <;> simp

theorem autoZeroCompletion_pending (ch : Channel) (s : State) : (autoZeroCompletion ch s).pending = s.pending := by
  unfold autoZeroCompletion
  split <;> simp

theorem netCatchExpiry_pending (s : State) : (netCatchExpiry s).pending = s.pending := by
  unfold netCatchExpiry
  (repeat' split) <;> simp

theorem transferExpiry_pending (s : State) : (transferExpiry s).pending = s.pending := by
  unfold transferExpiry
  (repeat' split) <;> simp

/-- A row that leaves the state as it is under nRST. -/
theorem unlessReset_pending {s t : State} (h : t.pending = s.pending) :
    (if s.nrstAsserted then s else t).pending = s.pending := by
  split
  · rfl
  · exact h

theorem exec_next (i : Instr) (s : State) : ∃ t, exec i s = .next t := by cases i <;> exact ⟨_, rfl⟩

theorem exec_pending {i : Instr} {s t : State} (he : exec i s = .next t) : t.pending = s.pending := by
  cases hi : onLinks i with
  | true => exact (queue_keptByRequests s.pending).exec hi rfl he
  | false =>
    cases i with
    | powerOnReset straps => cases he; rfl
    | pinResetAssertion => cases he; exact foldl_closeRecord_pending _ s
    | pinResetRelease straps => cases he; rw [refreshAttention_pending]; split <;> rfl
    | runClockTick => cases he; rfl
    | pdmOutputSlot => cases he; rfl
    | levelPinChange input asserted => cases he; exact s.modifyLevel_pending input _
    | stabilityTimerExpiry input => cases he; exact stabilityExpiry_pending input s
    | tablePulse => cases he; exact unlessReset_pending (tablePulse_frame s .pending (by decide))
    | tableIndex => cases he; exact unlessReset_pending (tableIndex_frame s .pending (by decide))
    | baleRoll => cases he; exact unlessReset_pending (baleRoll_frame s .pending (by decide))
    | netRoll => cases he; exact unlessReset_pending (netRoll_pending s)
    | filmPulse k => cases he; exact unlessReset_pending (s.modifyDispenser_pending k _)
    | conversionCompletion ch raw => cases he; exact conversionCompletion_frame ch raw s .pending (by decide)
    | zeroDueExpiry ch => cases he; exact zeroDueExpiry_pending ch s
    | autoZeroCompletion ch => cases he; exact autoZeroCompletion_pending ch s
    | netCatchExpiry => cases he; exact netCatchExpiry_pending s
    | transferTimerExpiry => cases he; exact transferExpiry_pending s
    | _ => cases hi

/-- Settles O2: every row answers a next state, and none writes the queue. -/
theorem everyCommandCompletes : Obligations.EveryCommandCompletes := fun i s =>
  (exec_next i s).imp fun _ he => ⟨he, exec_pending he⟩

end Sys2Proof.Machine
end

section
/-! Proofs. The links of ports A and B (R183 to R187): the rules of a link unit's operations, an error counted, a
partial frame abandoned, a data character, a good frame, and the end of a transmission. -/

namespace Sys2Proof.Machine

/-! ### A link unit read back -/

section

variable (s : State) (l : LinePort)

@[simp] theorem State.modifyLine_line (f : LineLink → LineLink) : (s.modifyLine l f).line l = f (s.line l) := by
  cases l <;> rfl

@[simp] theorem setLatch_line (p : Port) (src : Source) (i : Fin 4) (d : Nat) :
    (setLatch p src i d s).line l = s.line l := by cases l <;> rfl

@[simp] theorem refreshAttention_line : (refreshAttention s).line l = s.line l := by cases l <;> rfl

@[simp] theorem setReceiver_line (rx : Receiver) : (setReceiver l rx s).line l = { s.line l with rx := rx } :=
  s.modifyLine_line l _

/-- A change of a link unit changes no other part. -/
theorem State.modifyLine_link (f : LineLink → LineLink) : OnlyChanges [.link (linePort l)] s (s.modifyLine l f) := by
  intro k hk
  cases k with
  | arbiter p => exact Block.same_arbiter (by simp)
  | link p => cases l <;> cases p <;> first | rfl | simp [linePort] at hk
  | _ => simp [Block.same]

/-! ### An error counted (R197) -/

@[simp] theorem countLineError_line (e : LineError) : (countLineError l e s).line l = (s.line l).count e := by
  simp [countLineError]

theorem countLineError_hands (e : LineError) {s : State} (hn : s.nrstAsserted = false) :
    Hands [⟨linePort l, .link, lineErrorInst e, ((s.line l).count e).counter e⟩] s (countLineError l e s) :=
  (Hands.one (linePort l) .link (lineErrorInst e) _ (s := s.modifyLine l (·.count e)) (by simpa using hn)).congr
    (by simp) rfl

theorem countLineError_link (e : LineError) :
    OnlyChanges [.link (linePort l), .arbiter (linePort l)] s (countLineError l e s) :=
  ((s.modifyLine_link l _).mono (by simp)).trans ((setLatch_frame _ _ _ _ _).mono (by simp))

theorem lineErrorInst_eq (e : LineError) : lineErrorInst e = if e = .pendingLost then 1 else 0 := by cases e <;> rfl

/-- The receiver bears on no count. -/
theorem countLineError_setReceiver (e : LineError) (rx : Receiver) :
    countLineError l e (setReceiver l rx s) = setReceiver l rx (countLineError l e s) := by
  cases l <;> cases e <;> rfl

/-- An error counted, with the receiver put in a state. -/
theorem setReceiver_countsError (e : LineError) (rx : Receiver) (hn : s.nrstAsserted = false) :
    CountsError l e s (setReceiver l rx (countLineError l e s)) := by
  have hline : (setReceiver l rx (countLineError l e s)).line l = { (s.line l).count e with rx := rx } := by simp
  have hhands := (countLineError_hands l e hn).congr (s' := s) (t' := setReceiver l rx (countLineError l e s)) rfl
    (State.modifyLine_na _ _ _)
  have hframe := (countLineError_link s l e).trans ((State.modifyLine_link (countLineError l e s) l
    (fun x => { x with rx := rx })).mono (by simp))
  rw [lineErrorInst_eq] at hhands
  unfold CountsError
  rw [hline]
  refine ⟨by cases e <;> rfl, fun e' he => ?_, by cases e <;> rfl, by cases e <;> rfl, by cases e <;> rfl,
    by cases e <;> rfl, by cases e <;> rfl, by cases e <;> exact hhands, hframe⟩
  cases e <;> cases e' <;> first | rfl | exact absurd rfl he

end

theorem CountsError.refresh {l : LinePort} {e : LineError} {s t : State} (h : CountsError l e s t) :
    CountsError l e s (refreshAttention t) := by
  unfold CountsError at *
  simp only [refreshAttention_line, OnlyChanges_refreshAttention]
  obtain ⟨hcounter, hothers, hlatch, htx, hheld, himage, hframes, hhands, hframe⟩ := h
  exact ⟨hcounter, hothers, hlatch, htx, hheld, himage, hframes, hhands.refresh, hframe⟩

/-! ### A partial frame abandoned (R184) -/

theorem setReceiver_abandons (l : LinePort) (rx : Receiver) {s : State} (hn : s.nrstAsserted = false) :
    Abandons l s (refreshAttention (setReceiver l rx (abandonFrame l s))) := by
  refine ⟨fun c cs damaged hrx => ?_, fun hrx => ?_⟩
  · have habandon : abandonFrame l s = countLineError l .abandoned s := by simp [abandonFrame, hrx]
    rw [habandon]
    exact (setReceiver_countsError s l .abandoned rx hn).refresh
  · have habandon : abandonFrame l s = s := by
      rcases hrx with hrx | ⟨damaged, hrx⟩ <;> simp [abandonFrame, hrx]
    rw [habandon, LineFrame, OnlyChanges_refreshAttention]
    exact ⟨by simp, s.modifyLine_link l _⟩

/-- Settles O24: each event puts the receiver in its state and abandons the partial frame. -/
theorem addressCharacterAndTimeout : Obligations.AddressCharacterAndTimeout := by
  refine fun l data stopError s hn => ⟨.intro rfl ?_, .intro rfl ?_⟩
  · unfold addressCharacter
    simp only [hn, Bool.false_eq_true, if_false]
    split
    · exact ⟨by simp, setReceiver_abandons l _ hn⟩
    · exact ⟨by simp, setReceiver_abandons l _ hn⟩
  · unfold interCharacterTimeout
    simp only [hn, Bool.false_eq_true, if_false]
    exact ⟨by simp, setReceiver_abandons l _ hn⟩

/-! ### A data character (R184, R185) -/

section

variable {l : LinePort} {data : Byte} {stopError damaged : Bool} {chars : List Byte} {s : State}

theorem dataCharacter_listening (hn : s.nrstAsserted = false) (hrx : (s.line l).rx = .listening chars damaged) :
    dataCharacter l data stopError s = afterAppend l (chars ++ [data]) (damaged || stopError) s := by
  simp [dataCharacter, hn, hrx]

theorem nat1_append_left {k : Nat} (h : k < chars.length) : nat1 (chars ++ [data]) k = nat1 chars k := by
  simp [nat1, List.getD_eq_getElem?_getD, List.getElem?_append_left h]

theorem nat1_append_last (h : chars.length = 1) : nat1 (chars ++ [data]) 1 = data.toNat := by
  rw [nat1, List.getD_eq_getElem?_getD, ← h, List.getElem?_concat_length]
  rfl

/-- A length character above 48 abandons the frame. -/
theorem afterAppend_overlong (hl : chars.length = 1) (hdata : 48 < data.toNat) :
    afterAppend l (chars ++ [data]) damaged s = setReceiver l .dozing (countLineError l .abandoned s) :=
  if_pos ⟨by simp [hl], by rwa [nat1_append_last hl]⟩

/-- A character that neither completes nor overruns the frame is appended. -/
theorem afterAppend_grows (h : chars.length = 0 ∨ (chars.length = 1 ∧ data.toNat ≤ 48) ∨
    (2 ≤ chars.length ∧ chars.length + 1 ≠ 3 + nat1 chars 1)) :
    afterAppend l (chars ++ [data]) damaged s = setReceiver l (.listening (chars ++ [data]) damaged) s := by
  have hshort : ¬ ((chars ++ [data]).length = 2 ∧ 48 < nat1 (chars ++ [data]) 1) := by
    rintro ⟨hlen, hover⟩
    have hone : chars.length = 1 := by simpa using hlen
    rw [nat1_append_last hone] at hover
    omega
  have hopen : ¬ (3 ≤ (chars ++ [data]).length ∧ (chars ++ [data]).length = 3 + nat1 (chars ++ [data]) 1) := by
    rintro ⟨hlen, hfull⟩
    simp only [List.length_append, List.length_singleton] at hlen hfull
    rw [nat1_append_left (by omega)] at hfull
    omega
  rw [afterAppend, if_neg hshort, if_neg hopen]

/-- The character that makes the frame 3 + n long completes it. -/
theorem afterAppend_completes (h2 : 2 ≤ chars.length) (hfull : chars.length + 1 = 3 + nat1 chars 1) :
    afterAppend l (chars ++ [data]) damaged s =
      completeFrame l (chars ++ [data]) damaged (setReceiver l .dozing s) := by
  have hlong : ¬ ((chars ++ [data]).length = 2 ∧ 48 < nat1 (chars ++ [data]) 1) := by
    rintro ⟨hlen, -⟩
    simp only [List.length_append, List.length_singleton] at hlen
    omega
  have hdone : 3 ≤ (chars ++ [data]).length ∧ (chars ++ [data]).length = 3 + nat1 (chars ++ [data]) 1 := by
    rw [nat1_append_left (by omega)]
    simp only [List.length_append, List.length_singleton]
    omega
  rw [afterAppend, if_neg hlong, if_pos hdone]

end

/-! ### A good frame (R186) -/

/-- A complete frame carries its request (Table 10-1). -/
theorem requestOf_frame {code len check : Byte} {payload : List Byte} (hlen : len.toNat = payload.length) :
    requestOf (code :: len :: payload ++ [check]) = ⟨code, payload⟩ := by
  have hcount : nat1 (code :: len :: payload ++ [check]) 1 = payload.length := hlen
  rw [requestOf, hcount]
  simp

/-- The character that completes a good frame hands its request on, the receiver DOZING (R185). -/
theorem dataCharacter_good {l : LinePort} {data code len : Byte} {payload : List Byte} {s : State}
    (hn : s.nrstAsserted = false) (hlen : len.toNat = payload.length)
    (hrx : (s.line l).rx = .listening (code :: len :: payload) false)
    (hsum : byteSum ((code :: len :: payload) ++ [data]) = 0) :
    Machine.dataCharacter l data false s = handleGood l ⟨code, payload⟩ (setReceiver l .dozing s) := by
  have hcount : nat1 (code :: len :: payload) 1 = payload.length := hlen
  rw [dataCharacter_listening hn hrx, afterAppend_completes (by simp) (by rw [hcount]; simp; omega), completeFrame,
    if_neg (by simp), if_neg (not_not_intro hsum), requestOf_frame hlen]

/-- Settles O26: the good frame meets an idle transmitter, an empty pending slot or a full one. -/
theorem goodFrame : Obligations.GoodFrame := by
  intro l data s code payload len i hn hlen _ hrx hsum hrow
  have hgood := dataCharacter_good hn hlen hrx hsum
  refine ⟨fun hidle => ?_, fun r hsending hempty => .intro rfl ?_, fun r q hsending hheld => .intro rfl ?_⟩
  · rw [exec_requestRow _ hrow]
    show Host.Outcome.next (refreshAttention (Machine.dataCharacter l data false s)) = _
    rw [hgood, handleGood, setReceiver_line, hidle]
    rfl
  · rw [hgood, handleGood, setReceiver_line, hsending, hempty, OnlyChanges_refreshAttention]
    exact ⟨by simp, (s.modifyLine_link l _).trans (State.modifyLine_link _ l _)⟩
  · rw [hgood, handleGood, setReceiver_line, hsending, hheld, OnlyChanges_refreshAttention]
    refine ⟨?_, Hands.refresh ?_, ?_⟩
    · simp [LineLink.count, stepCounter]
    · have hhands := countLineError_hands l .pendingLost (s := setReceiver l .dozing s)
        (by simpa [setReceiver] using hn)
      simpa [LineLink.count, LineLink.counter, lineErrorInst] using hhands.congr (s' := s)
        (t' := (countLineError l .pendingLost (setReceiver l .dozing s)).modifyLine l
          (fun x => { x with held := some ⟨code, payload⟩ })) (by simp [setReceiver]) (by simp)
    · exact ((s.modifyLine_link l _).mono (by simp)).trans
        ((countLineError_link _ l _).trans ((State.modifyLine_link _ l _).mono (by simp)))

/-! ### The end of a transmission (R186) -/

/-- Settles O27: with nothing pending the transmitter becomes idle; a pending frame is taken at once. -/
theorem responseTransmissionCompletion : Obligations.ResponseTransmissionCompletion := by
  refine fun l s hn => ⟨fun hidle => .intro rfl ?_, fun r hsending hempty => .intro rfl ?_,
    fun r q i hsending hheld hrow => ?_⟩
  · simpa [transmissionCompletion, hn, hidle] using OnlyChanges.refl [] s
  · have hends : transmissionCompletion l s = s.modifyLine l (fun x => { x with tx := none }) := by
      simp [transmissionCompletion, hn, hsending, hempty]
    rw [hends, State.sends_refreshAttention, OnlyChanges_refreshAttention]
    exact ⟨by simp, State.sends_none (by simp), s.modifyLine_link l _⟩
  · have hnext : transmissionCompletion l s = takeRequest (linePort l) q.code q.payload
        (s.modifyLine l (fun x => { x with tx := none, held := none })) := by
      simp [transmissionCompletion, hn, hsending, hheld]
    rw [exec_requestRow _ hrow, ← hnext]
    rfl

end Sys2Proof.Machine

namespace Sys2Proof.Proofs

open Machine

/-- Settles O25: the four ends of a character received while LISTENING, by the length of the frame it makes. -/
theorem dataCharacter : Obligations.DataCharacter := by
  refine fun l data stopError s hn => .intro rfl ⟨fun hrx => ?_, fun chars damaged hrx => ?_⟩
  · simpa [Machine.dataCharacter, hn, hrx] using OnlyChanges.refl [] s
  rw [dataCharacter_listening hn hrx]
  refine ⟨fun hone hover => ?_, fun hgrows => ?_, fun htwo hfull hdamaged => ?_, fun htwo hfull hwhole hsum => ?_⟩
  · rw [afterAppend_overlong hone hover]
    exact ⟨by simp, (setReceiver_countsError s l .abandoned .dozing hn).refresh⟩
  · rw [afterAppend_grows hgrows, LineFrame, OnlyChanges_refreshAttention]
    exact ⟨by simp, by simp, s.modifyLine_link l _⟩
  · rw [afterAppend_completes htwo hfull, completeFrame, if_pos hdamaged, countLineError_setReceiver]
    exact ⟨by simp, (setReceiver_countsError s l .framing .dozing hn).refresh⟩
  · rw [afterAppend_completes htwo hfull, completeFrame, if_neg (by simp [hwhole]), if_pos hsum,
      countLineError_setReceiver]
    exact ⟨by simp, (setReceiver_countsError s l .check .dozing hn).refresh⟩

end Sys2Proof.Proofs
end

section
/-! Proofs. The transactions of port C (R189 to R191): an error counted on LC, what a write and a read leave, and the
statement. -/

namespace Sys2Proof.Machine

/-! ### An error counted on LC (R197) -/

section

variable (s : State) (e : TargetError)

theorem countTargetError_hands (hn : s.nrstAsserted = false) :
    Hands [⟨.c, .link, targetErrorInst e, (s.lc.count e).counter e⟩] s (countTargetError e s) :=
  (Hands.one .c .link (targetErrorInst e) _ (s := s.modifyTarget (·.count e)) hn).congr rfl rfl

theorem State.modifyTarget_link (f : TargetLink → TargetLink) : OnlyChanges [.link .c] s (s.modifyTarget f) := by
  intro k hk
  cases k with
  | arbiter p => exact ⟨rfl, rfl, rfl⟩
  | link p => cases p <;> first | rfl | simp at hk
  | _ => rfl

theorem countTargetError_link : OnlyChanges [.link .c, .arbiter .c] s (countTargetError e s) :=
  ((s.modifyTarget_link _).mono (by simp)).trans ((setLatch_frame _ _ _ _ _).mono (by simp))

end

/-! ### Writes (R189) -/

section

variable {address : BitVec 7} {bytes : List Byte} {s : State}

theorem writeTransaction_other (h : s.acknowledges address = false) :
    writeTransaction ⟨address, bytes⟩ s = s.onWires [] [] := by simp [writeTransaction, h]

theorem writeTransaction_own (h : s.acknowledges address = true) :
    writeTransaction ⟨address, bytes⟩ s = decideWrite bytes (s.onWires (writeAcks bytes.length) []) := by
  simp [writeTransaction, h]

theorem decideWrite_length (hne : bytes ≠ []) (h : 51 < bytes.length ∨ bytes.length ≠ 3 + nat1 bytes 1) :
    decideWrite bytes s = countTargetError .length s := by
  rw [decideWrite, if_neg (by simpa using hne), if_pos h]

theorem decideWrite_check (hl : bytes.length ≤ 51) (hfull : bytes.length = 3 + nat1 bytes 1)
    (hsum : byteSum bytes ≠ 0) : decideWrite bytes s = countTargetError .check s := by
  rw [decideWrite, if_neg (by omega), if_neg (by omega), if_pos hsum]

theorem decideWrite_takes (hl : bytes.length ≤ 51) (hfull : bytes.length = 3 + nat1 bytes 1)
    (hsum : byteSum bytes = 0) :
    decideWrite bytes s = takeRequest .c (requestOf bytes).code (requestOf bytes).payload s := by
  rw [decideWrite, if_neg (by omega), if_neg (by omega), if_neg (not_not_intro hsum)]

/-- A write that is discarded is counted, and leaves what LC put on the wires. -/
theorem discardWrite (e : TargetError) (acks : List Bool) (hn : s.nrstAsserted = false) :
    Hands [⟨.c, .link, targetErrorInst e, (s.lc.count e).counter e⟩] s
      (refreshAttention (countTargetError e (s.onWires acks []))) ∧
    OnlyChanges [.link .c, .arbiter .c] s (refreshAttention (countTargetError e (s.onWires acks []))) := by
  have hcount : ((s.onWires acks []).lc.count e).counter e = (s.lc.count e).counter e := by cases e <;> rfl
  have hhands := countTargetError_hands (s.onWires acks []) e hn
  rw [hcount] at hhands
  rw [OnlyChanges_refreshAttention]
  exact ⟨(hhands.congr rfl rfl).refresh,
    ((s.onWires_frame acks []).mono (by simp)).trans (countTargetError_link _ e)⟩

/-- A complete write carries its request to its own row. -/
theorem writeTransaction_takes {code len check : Byte} {payload : List Byte} {i : Instr}
    (hown : s.acknowledges address = true) (hbytes : bytes = code :: len :: payload ++ [check])
    (hlen : len.toNat = payload.length) (hpayload : payload.length ≤ 48) (hsum : byteSum bytes = 0)
    (hrow : requestRow i = some (.c, code, payload)) :
    exec (.writeTransaction ⟨address, bytes⟩) s = exec i (s.onWires (writeAcks bytes.length) []) := by
  have hlength : bytes.length = 3 + payload.length := by
    rw [hbytes]
    simp
    omega
  have hcount : nat1 bytes 1 = payload.length := by
    rw [hbytes]
    exact hlen
  have hrequest : requestOf bytes = ⟨code, payload⟩ := hbytes ▸ requestOf_frame hlen
  show Host.Outcome.next (refreshAttention (writeTransaction ⟨address, bytes⟩ s)) = _
  rw [writeTransaction_own hown, decideWrite_takes (by omega) (by omega) hsum, hrequest, exec_requestRow _ hrow]

end

/-! ### Reads (R191) -/

section

variable {address : BitVec 7} {count : Nat} {s : State}

theorem readTransaction_other (h : s.acknowledges address = false) :
    readTransaction ⟨address, count⟩ s = s.onWires [] [] := by simp [readTransaction, h]

/-- LC's unit after a read of its own address. -/
theorem readTransaction_lc (h : s.acknowledges address = true) :
    (readTransaction ⟨address, count⟩ s).lc = { s.lc with
      acks := [true]
      sda := readBytes s.readable count
      buffer := if s.readable.length ≤ count then none else s.lc.buffer
      readPos := if s.readable.length ≤ count then 0 else if s.lc.buffer.isSome then count else 0 } := by
  rw [readTransaction, if_pos h]
  rfl

theorem readTransaction_link (read : ReadTransfer) (s : State) : OnlyChanges [.link .c] s (readTransaction read s) := by
  rcases readTransaction_cases read s with ⟨-, h⟩ | ⟨-, h⟩ <;> rw [h]
  · exact s.onWires_frame _ _
  · exact (s.onWires_frame _ _).trans (State.modifyTarget_link _ _)

/-- The idle frame has four bytes 0x00 (R191). -/
theorem getD_idleFrame (k : Nat) : idleFrame.getD k 0xFF = if k < 4 then 0x00 else 0xFF := by
  match k with
  | 0 | 1 | 2 | 3 => rfl
  | k + 4 => simp [idleFrame]

theorem State.acknowledges_own (hn : s.nrstAsserted = false) (h : address.toNat = 0x2C + s.straps.c.toNat) :
    s.acknowledges address = true := (s.acknowledges_iff address).mpr ⟨hn, h⟩

theorem State.acknowledges_other (h : address.toNat ≠ 0x2C + s.straps.c.toNat) : s.acknowledges address = false :=
  Bool.eq_false_iff.mpr fun hown => h ((s.acknowledges_iff address).mp hown).2

end

/-! ### The statement -/

/-- A read of LC's own address shows the response, or the idle frame. -/
theorem readTransaction_runs {address : BitVec 7} (count : Nat) {s : State} (hown : s.acknowledges address = true) :
    Runs (.readTransaction ⟨address, count⟩) s (fun t =>
      t.lc.acks = [true] ∧ t.lc.sda.length = count ∧
      (∀ r, s.lc.buffer = some r →
        (∃ frame, FrameOf r frame ∧ ∀ k, k < count → t.lc.sda[k]? = some (frame.getD k 0xFF)) ∧
        (r.reply.payload.length + 4 ≤ count → t.lc.buffer = none ∧ t.lc.readPos = 0) ∧
        (count < r.reply.payload.length + 4 → t.lc.buffer = some r ∧ t.lc.readPos = count)) ∧
      (s.lc.buffer = none →
        t.lc.buffer = none ∧ t.lc.readPos = 0 ∧
        ∀ k, k < count → t.lc.sda[k]? = some (if k < 4 then 0x00 else 0xFF)) ∧
      t.lc = { s.lc with
        acks := t.lc.acks, sda := t.lc.sda, buffer := t.lc.buffer, readPos := t.lc.readPos } ∧
      OnlyChanges [.link .c] s t) := by
  refine .intro rfl ?_
  rw [refreshAttention_lc, readTransaction_lc hown, OnlyChanges_refreshAttention]
  refine ⟨rfl, length_readBytes _ _, fun r hr => ?_, fun hempty => ?_, rfl, readTransaction_link _ s⟩
  · have hreadable : s.readable = r.bytes := by simp [State.readable, hr]
    have hlength : s.readable.length = r.reply.payload.length + 4 := by rw [hreadable, Response.length_bytes]
    refine ⟨⟨r.bytes, r.frameOf_bytes, fun k hk => hreadable ▸ getElem?_readBytes hk⟩, fun hwhole => ?_,
      fun hpart => ?_⟩
    · simp only [hlength, if_pos hwhole, and_self]
    · simp [hlength, Nat.not_le.mpr hpart, hr]
  · have hreadable : s.readable = idleFrame := by simp [State.readable, hempty]
    refine ⟨by simp [hempty], by simp [hempty], fun k hk => ?_⟩
    rw [← getD_idleFrame, ← hreadable]
    exact getElem?_readBytes hk

/-- Settles O28: LC's decision on a write by the length and the sum of its bytes, and what a read shows and consumes. -/
theorem portCTransactions : Obligations.PortCTransactions := by
  refine ⟨fun address bytes count s hn hother => ?_, ?_, fun address count s hn haddress => ?_⟩
  · have hquiet := State.acknowledges_other hother
    refine ⟨.intro rfl ?_, .intro rfl ?_⟩
    · rw [writeTransaction_other hquiet, OnlyChanges_refreshAttention]
      exact ⟨rfl, s.onWires_frame [] []⟩
    · rw [readTransaction_other hquiet, OnlyChanges_refreshAttention]
      exact ⟨rfl, s.onWires_frame [] []⟩
  · rintro address bytes s u hn haddress rfl
    have hown := State.acknowledges_own hn haddress
    refine ⟨fun hnone => .intro rfl ?_, fun hne hbad => .intro rfl ?_, fun hl hfull hsum => .intro rfl ?_,
      fun code len check payload i => writeTransaction_takes hown⟩
    · have hquiet : decideWrite bytes (s.onWires (writeAcks bytes.length) []) =
          s.onWires (writeAcks bytes.length) [] := by
        simp [decideWrite, hnone]
      rw [writeTransaction_own hown, hquiet, OnlyChanges_refreshAttention]
      exact ⟨rfl, s.onWires_frame _ _⟩
    · rw [writeTransaction_own hown, decideWrite_length hne hbad]
      exact ⟨rfl, discardWrite .length _ hn⟩
    · rw [writeTransaction_own hown, decideWrite_check hl hfull hsum]
      exact ⟨rfl, discardWrite .check _ hn⟩
  · exact readTransaction_runs count (State.acknowledges_own hn haddress)

end Sys2Proof.Machine
end

section
/-! Proofs. Taking a request (R190, R192, R196, R197): what the taking leaves of the port's own link unit, which owning
block follows it, the checks by the rows of Table 10-3, and what a refusal leaves. -/

namespace Sys2Proof.Machine

/-! ### What comes before the owning block -/

section

variable (p : Port) (code : Byte) (s : State)

theorem commandOfCode_readNext_iff : commandOfCode code = some .readNext ↔ code = 0x03 :=
  ⟨fun h => (byte_of_code h).symm, fun h => h ▸ commandOfCode_byte .readNext⟩

@[simp] theorem stepFrames_imageOf : (stepFrames p s).imageOf p = s.imageOf p := by cases p <;> rfl

@[simp] theorem setImage_imageOf (img : Option Image) : (s.setImage p img).imageOf p = img := by cases p <;> rfl

@[simp] theorem loseResponse_imageOf : (loseResponse s).imageOf p = s.imageOf p := by
  unfold loseResponse
  split
  · cases p <;> rfl
  · rfl

theorem beforeTake_framesOf : (beforeTake p code s).framesOf p = stepSaturating (s.framesOf p) 255 := by
  obtain ⟨hline, htarget⟩ := beforeTake_link p code s
  cases p with
  | a => exact congrArg LineLink.frames (hline .a rfl)
  | b => exact congrArg LineLink.frames (hline .b rfl)
  | c => exact congrArg TargetLink.frames (htarget rfl)

/-- Every command but READ NEXT discards the port's image (R196). -/
theorem beforeTake_imageOf : (beforeTake p code s).imageOf p = if code = 0x03 then s.imageOf p else none := by
  simp only [beforeTake_eq, commandOfCode_readNext_iff]
  split
  · rw [stepFrames_imageOf]
    split <;> simp
  · exact setImage_imageOf p _ none

end

theorem State.loses_iff {s : State} {p : Port} : s.loses p = true ↔ p = .c ∧ s.lc.buffer.isSome = true := by
  simp [State.loses]

/-- A lost response is counted by LC, and by nothing else (R190). -/
theorem beforeTake_lost_hands {p : Port} (code : Byte) {s : State} (hn : s.nrstAsserted = false)
    (h : s.loses p = true) :
    Hands [⟨.c, .link, 2, stepSaturating s.lc.responseLost 255⟩] s (beforeTake p code s) := by
  obtain ⟨rfl, hbuffer⟩ := State.loses_iff.mp h
  obtain ⟨r, hr⟩ := Option.isSome_iff_exists.mp hbuffer
  let emptied := s.modifyTarget (fun x => { x with buffer := none, readPos := 0 })
  have hloses : loseResponse s = countTargetError .responseLost emptied := by simp [loseResponse, hr, emptied]
  have hna : (beforeTake .c code s).na = (countTargetError .responseLost emptied).na := by
    rw [beforeTake_eq, if_pos h, hloses]
    split <;> simp
  exact (countTargetError_hands emptied .responseLost hn).congr rfl hna

/-! ### The owning block that follows -/

section

variable (p : Port) (code : Byte) (pl : List Byte) (s : State)

/-- Either the common checks refuse, or the command's own block carries it out (R192). -/
theorem carryOutCode_cases : (∃ st, carryOutCode p code pl s = (s, refuse st)) ∨
    ∃ c, commandOfCode code = some c ∧ carryOutCode p code pl s = ownBlock c p pl s := by
  unfold carryOutCode carryOut
  split
  next c hc =>
    split
    · exact .inl ⟨_, rfl⟩
    split
    · exact .inl ⟨_, rfl⟩
    · exact .inr ⟨c, hc, rfl⟩
  next => exact .inl ⟨_, rfl⟩

end

theorem State.imageOf_congr {changed : List Block} {s t : State} (h : OnlyChanges changed s t) {p : Port}
    (hp : Block.link p ∉ changed) : t.imageOf p = s.imageOf p := by
  have hlink := h (.link p) hp
  cases p with
  | a => exact congrArg LineLink.image hlink
  | b => exact congrArg LineLink.image hlink
  | c => exact congrArg TargetLink.image hlink

theorem State.framesOf_congr {changed : List Block} {s t : State} (h : OnlyChanges changed s t) {p : Port}
    (hp : Block.link p ∉ changed) : t.framesOf p = s.framesOf p := by
  have hlink := h (.link p) hp
  cases p with
  | a => exact congrArg LineLink.frames hlink
  | b => exact congrArg LineLink.frames hlink
  | c => exact congrArg TargetLink.frames hlink

theorem link_notMem_ownedBlocks (p : Port) : Block.link p ∉ ownedBlocks := by cases p <;> decide

/-- Outside PORT RESET a block leaves the FRAMES counter. -/
theorem ownBlock_framesOf {c : Command} (hc : c ≠ .portReset) (p : Port) (pl : List Byte) (s : State) :
    (ownBlock c p pl s).1.framesOf p = s.framesOf p := by
  have hsends : c ∈ [.readNext, .readBale, .readRecipe, .fetchReport] →
      (ownBlock c p pl s).1.framesOf p = s.framesOf p := fun hc => by
    rcases ownBlock_sendsImage hc p pl s with h | ⟨img, h⟩ <;> rw [h]
    cases p <;> rfl
  cases hreach : c.reachesLink with
  | false => exact State.framesOf_congr (ownBlock_owned hreach p pl s) (link_notMem_ownedBlocks p)
  | true =>
    cases c with
    | readNext | readBale | readRecipe | fetchReport => exact hsends (by simp)
    | readLinkStats =>
      show (cmdReadLinkStats p pl s).1.framesOf p = _
      rcases cmdReadLinkStats_state p pl s with h | h <;> rw [h]
      cases p <;> rfl
    | portReset => exact absurd rfl hc
    | _ => cases hreach

/-- Outside the commands that send one a block puts no image on the port. -/
theorem ownBlock_imageOf {c : Command} (hc : c ∉ [.readNext, .readBale, .readRecipe, .fetchReport]) (p : Port)
    (pl : List Byte) {s : State} (h : s.imageOf p = none) : (ownBlock c p pl s).1.imageOf p = none := by
  cases hreach : c.reachesLink with
  | false => exact (State.imageOf_congr (ownBlock_owned hreach p pl s) (link_notMem_ownedBlocks p)).trans h
  | true =>
    cases c with
    | readNext | readBale | readRecipe | fetchReport => simp at hc
    | readLinkStats =>
      show (cmdReadLinkStats p pl s).1.imageOf p = none
      rcases cmdReadLinkStats_state p pl s with hstate | hstate <;> rw [hstate]
      · exact h
      · cases p <;> exact h
    | portReset => cases p <;> rfl
    | _ => cases hreach

/-! ### The state a request leaves -/

section

variable {p : Port} {code : Byte} {s : State}

@[simp] theorem after_framesOf (r : Response) (v : State) :
    (refreshAttention (deliver p r v)).framesOf p = v.framesOf p := by cases p <;> rfl

@[simp] theorem after_imageOf (r : Response) (v : State) :
    (refreshAttention (deliver p r v)).imageOf p = v.imageOf p := by cases p <;> rfl

/-- Where the common checks refuse, the link unit is as the taking left it. -/
theorem LinkKept.of_beforeTake (r : Response) : LinkKept p s (refreshAttention (deliver p r (beforeTake p code s))) :=
  LinkKept.of_ownBlock .identify p [] s (by simp) (by simp) code r

/-- A response delivered to port A or B is what the transmitter sends (R187). -/
theorem sends_deliver (l : LinePort) (r : Response) (v : State) :
    (refreshAttention (deliver (linePort l) r v)).sends l = r.characters (addressOf v.straps (linePort l)) := by
  cases l <;> rfl

/-- What a request's row leaves of the port's own, whatever its block. -/
theorem carryOutCode_leaves (pl : List Byte) :
    let v := (carryOutCode p code pl (beforeTake p code s)).1
    (code ≠ 0x0F → v.framesOf p = stepSaturating (s.framesOf p) 255) ∧
    (code ∉ [0x03, 0x10, 0x41, 0x48] → v.imageOf p = none) ∧
    (code ∉ [0x0C, 0x0F] → ∀ r, LinkKept p s (refreshAttention (deliver p r v))) := by
  have hframes := beforeTake_framesOf p code s
  have himage : code ≠ 0x03 → (beforeTake p code s).imageOf p = none := fun h => by
    rw [beforeTake_imageOf, if_neg h]
  rcases carryOutCode_cases p code pl (beforeTake p code s) with ⟨st, h⟩ | ⟨c, hc, h⟩ <;> rw [h]
  · exact ⟨fun _ => hframes, fun hcode => himage (by simp at hcode; tauto), fun _ r => .of_beforeTake r⟩
  · obtain rfl := byte_of_code hc
    refine ⟨fun hcode => ?_, fun hcode => ?_, fun hcode r => ?_⟩
    · exact (ownBlock_framesOf (fun hreset => hcode (by subst hreset; rfl)) p pl _).trans hframes
    · refine ownBlock_imageOf (fun hsends => hcode ?_) p pl (himage (fun hnext => hcode (by simp [hnext])))
      simp only [List.mem_cons, List.not_mem_nil, or_false] at hsends
      rcases hsends with rfl | rfl | rfl | rfl <;> decide
    · exact .of_ownBlock c p pl s (fun hstats => hcode (by subst hstats; decide))
        (fun hreset => hcode (by subst hreset; decide)) _ r

end

/-- Settles O29: the taking is `beforeTake`, then the block, which leaves the link unit but for what it sends, and the
response to the port. -/
theorem requestTaken : Obligations.RequestTaken := by
  intro i p code payload s hn hrow
  refine ⟨⟨beforeTake_framesOf p code s, fun hcode => by rw [beforeTake_imageOf, if_neg hcode],
    fun hcode => by rw [beforeTake_imageOf, if_pos hcode], fun hlost => ?_, beforeTake_frame p code s⟩, ?_⟩
  · have hhands := beforeTake_lost_hands code hn hlost
    obtain ⟨rfl, hbuffer⟩ := State.loses_iff.mp hlost
    have hlc := (beforeTake_link .c code s).2 rfl
    exact ⟨congrArg TargetLink.buffer hlc, (congrArg TargetLink.errorLatch hlc).trans (by simp [hbuffer]),
      (congrArg TargetLink.responseLost hlc).trans (if_pos hbuffer), hhands⟩
  · obtain ⟨hframes, himage, hkept⟩ := carryOutCode_leaves (p := p) (code := code) (s := s) payload
    have hframe := carryOutCode_frame p code payload (beforeTake p code s)
    generalize hc : carryOutCode p code payload (beforeTake p code s) = x at hframes himage hkept hframe
    obtain ⟨v, reply⟩ := x
    refine .intro (exec_request hrow hn hc) ⟨⟨reply, by simp, ?_⟩, by simpa using hframes, by simpa using himage,
      fun hcode => hkept hcode _, fun q hq => request_frame hframe (.link q) ?_⟩
    · rintro l rfl
      have hstraps : v.straps = s.straps := by
        rw [hframe .straps (by cases l <;> decide), beforeTake_straps]
      exact ⟨_, Response.frameOf_bytes _, by rw [sends_deliver, hstraps]; rfl⟩
    · rw [List.mem_append, List.mem_cons]
      rintro ((hsame | howned) | htake)
      · exact hq (by simpa using hsame)
      · exact link_notMem_ownedBlocks q howned
      · rcases takeBlocks_mem htake with hsame | harbiter
        · exact hq (by simpa using hsame)
        · cases harbiter

/-! ### The common checks by the rows of Table 10-3 -/

/-- A command's row of Table 10-3. -/
def Command.row (c : Command) : Option CommandRow := commandRows.find? (fun row => row.code == c.code)

theorem exists_command : ∀ row ∈ commandRows, ∃ c ∈ allCommands, c.row = some row := by decide

theorem Command.exists_row (c : Command) : ∃ row ∈ commandRows, row.code = c.code := by cases c <;> decide

/-- A row's code and ports are its command's, and so is the length where it gives one. -/
theorem Command.row_spec {c : Command} {row : CommandRow} (h : c.row = some row) :
    c.code = row.code ∧ c.ports = row.ports ∧
      ∀ n, row.length = some n → ∀ pl, c.lengthFits pl = (pl.length == n) := by
  cases c <;> cases h <;> exact ⟨rfl, rfl, fun n hn pl => by cases hn <;> rfl⟩

theorem commandOfCode_none {code : Byte} (h : ∀ row ∈ commandRows, row.code ≠ code.toNat) :
    commandOfCode code = none := by
  refine List.find?_eq_none.mpr fun c _ => ?_
  obtain ⟨row, hrow, hcode⟩ := c.exists_row
  simpa [← hcode] using h row hrow

/-- The row of a listed code is that of its command. -/
theorem commandOfCode_row {code : Byte} {row : CommandRow} (hrow : row ∈ commandRows) (hcode : row.code = code.toNat) :
    ∃ c, commandOfCode code = some c ∧ c.row = some row := by
  obtain ⟨c, -, hc⟩ := exists_command row hrow
  have hbyte : c.byte = code := by
    rw [Command.byte, (Command.row_spec hc).1, hcode, BitVec.ofNat_toNat, BitVec.setWidth_eq]
  exact ⟨c, hbyte ▸ commandOfCode_byte c, hc⟩

/-- A refusal by the common checks. -/
theorem refusedCode_of {i : Instr} {p : Port} {code : Byte} {payload : List Byte} {s : State} {st : Status}
    (hrow : requestRow i = some (p, code, payload)) (hn : s.nrstAsserted = false)
    (hc : carryOutCode p code payload (beforeTake p code s) = (beforeTake p code s, refuse st)) :
    Runs i s (RefusedCode p code st s) :=
  .intro (exec_request hrow hn hc) ⟨by simp [refuse], by simpa using request_frame (changed := []) (.refl _ _)⟩

/-- Settles O30: the three checks in their order, and a block that refuses leaves the state as the taking left it. -/
theorem refusalsChangeNothing : Obligations.RefusalsChangeNothing := by
  refine ⟨fun i p code payload s hn hreq => ⟨fun hnone => ?_, fun row hrow hcode => ?_⟩, by decide,
    fun i p code payload s hn hreq => ?_⟩
  · exact refusedCode_of hreq hn (by rw [carryOutCode, commandOfCode_none hnone])
  · obtain ⟨c, hc, hspec⟩ := commandOfCode_row hrow hcode
    obtain ⟨-, hports, hfits⟩ := Command.row_spec hspec
    have hpermits : c.permits p = decide (p ∈ row.ports) := by rw [Command.permits, hports, List.contains_eq_mem]
    refine ⟨fun hport => refusedCode_of hreq hn ?_, fun n hport hlength hne => refusedCode_of hreq hn ?_⟩
    · simp [carryOutCode, hc, carryOut, hpermits, hport]
    · simp [carryOutCode, hc, carryOut, hpermits, hport, hfits n hlength, hne]
  · generalize hx : carryOutCode p code payload (beforeTake p code s) = x
    refine .intro (exec_request hreq hn hx) fun r hr hstatus => ?_
    rw [responseOn_refreshAttention, responseOn_deliver, Option.some.injEq] at hr
    subst hr
    have hkept : x.1 = beforeTake p code s := hx ▸ carryOutCode_refused code p payload _ (hx ▸ hstatus)
    rw [hkept]
    simpa using request_frame (changed := []) (.refl _ _)

end Sys2Proof.Machine
end

section
/-! Proofs. The requests that read the part over the links: IDENTIFY and READ STATUS (R199, R200), the images and their
chunks (R21, R57, R160, R194, R195), and READ LINK STATS (R198). -/

namespace Sys2Proof.Machine

/-! ### IDENTIFY and READ STATUS (R199, R200) -/

/-- A request that reads leaves the port's link unit as the taking left it, its image discarded (R196). -/
theorem runs_of_reads_links {i : Instr} {p : Port} {c : Command} {payload items : List Byte} {s : State}
    (hr : requestRow i = some (p, c.byte, payload)) (hn : s.nrstAsserted = false) (hp : c.permits p = true)
    (hl : c.lengthFits payload = true) (hnext : c.byte ≠ 0x03)
    (hc : ownBlock c p payload (beforeTake p c.byte s) = (beforeTake p c.byte s, answer items)) :
    Runs i s (fun t => Answered p c .ok items t ∧ LinkKept p s t ∧ t.imageOf p = none ∧
      OnlyChanges (takeBlocks p s) s t) :=
  runs_of hr hn hp hl hc ⟨answered_deliver p _ c items, .of_beforeTake _,
    by rw [after_imageOf, beforeTake_imageOf, if_neg hnext],
    by simpa using request_frame (changed := []) (.refl _ _)⟩

theorem State.levelMarks_eq (s : State) : s.levelMarks =
    s.mi.stop.filtered.toNat + 2 * s.mi.tailgate.filtered.toNat + 4 * s.mi.tableLoaded.filtered.toNat := by
  simp only [State.levelMarks, marks]
  omega

theorem marks_pair (a b : Bool) : marks [a, b] = a.toNat + 2 * b.toNat := by simp [marks]

/-- Settles O31: both blocks answer from the state the taking left, which differs in the link unit alone. -/
theorem identifyAndReadStatus : Obligations.IdentifyAndReadStatus := by
  intro p s hn
  refine ⟨runs_of_reads_links (c := .identify) rfl hn (by cases p <;> rfl) rfl (by decide) ?_,
    runs_of_reads_links (c := .readStatus) rfl hn (by cases p <;> rfl) rfl (by decide) ?_⟩
  · simp [ownBlock, cmdIdentify]
  · have hbyte : Command.readStatus.byte = 0x02 := rfl
    simp [ownBlock, cmdReadStatus, State.levelMarks_eq, marks_pair, State.seqIn_eq, orZero, hbyte]

/-! ### Images (R21, R57, R160, R194) -/

/-- A request whose block takes an image answers with its first chunk. -/
theorem runs_of_image {i : Instr} {p : Port} {c : Command} {payload bytes : List Byte} {s : State}
    (hr : requestRow i = some (p, c.byte, payload)) (hn : s.nrstAsserted = false) (hp : c.permits p = true)
    (hl : c.lengthFits payload = true)
    (hc : ownBlock c p payload (beforeTake p c.byte s) = takeImage p bytes (beforeTake p c.byte s)) :
    Runs i s (SendsImage p c bytes s) :=
  runs_of hr hn hp hl hc ⟨by simp, by simp [Answered, Command.byte, chunkReply, byte1],
    (request_frame (State.setImage_link _ p _)).mono (by simp [link_mem_takeBlocks])⟩

section

variable {p : Port} {s : State} {sel hi lo : Byte}

theorem cmdReadBale_seq (h : sel.toNat = 0) :
    cmdReadBale p [sel, hi, lo] s = readBaleImage p (s.recordOf (hi.toNat * 256 + lo.toNat)) s :=
  if_pos h

theorem cmdReadBale_zone (h : sel.toNat = 1) {z : Zone} (hz : hi.toNat * 256 + lo.toNat = z.number.val) :
    cmdReadBale p [sel, hi, lo] s = readBaleImage p (s.recordIn z) s := by
  have hsel : nat1 [sel, hi, lo] 0 = 1 := h
  have hzone : zoneOfNumber (nat2 [sel, hi, lo] 1) = some z :=
    (congrArg zoneOfNumber hz).trans (by cases z <;> rfl)
  simp [cmdReadBale, hsel, hzone]

theorem cmdReadBale_badZone (h : sel.toNat = 1) (hz : 2 < hi.toNat * 256 + lo.toNat) :
    cmdReadBale p [sel, hi, lo] s = (s, refuse .badValue) := by
  have hsel : nat1 [sel, hi, lo] 0 = 1 := h
  have hzone : zoneOfNumber (nat2 [sel, hi, lo] 1) = none := by
    have hnumber : 2 < nat2 [sel, hi, lo] 1 := hz
    unfold zoneOfNumber
    split <;> first | omega | rfl
  simp [cmdReadBale, hsel, hzone]

theorem cmdReadBale_badSelector (h : 1 < sel.toNat) : cmdReadBale p [sel, hi, lo] s = (s, refuse .badValue) := by
  have hsel : 1 < nat1 [sel, hi, lo] 0 := h
  rw [cmdReadBale, if_neg (by omega), if_neg (by omega)]

theorem cmdReadRecipe_sends {n : Byte} {x : RecipeSlot} (hn : n.toNat ≤ 7) (hx : s.rs.slots[n.toNat]? = some x) :
    cmdReadRecipe p [n] s = takeImage p (byte1 n.toNat ++ flag1 x.valid ++ recipeBlock x.recipe) s := by
  simp [cmdReadRecipe, nat1_single, Nat.not_lt.mpr hn, hx, recipeImage, List.getD_eq_getElem?_getD]

/-! ### READ NEXT (R195) -/

theorem cmdReadNext_chunk {k : Byte} {img : Image} (himg : s.imageOf p = some img)
    (hnext : k.toNat = img.lastChunk ∨ k.toNat = img.lastChunk + 1) (hk : 47 * k.toNat < img.bytes.length) :
    cmdReadNext p [k] s = (s.setImage p (some { img with lastChunk := k.toNat }), chunkReply img.bytes k.toNat) := by
  simp [cmdReadNext, himg, nat1_single, hk, hnext.symm]

theorem cmdReadNext_badValue {k : Byte} {img : Image} (himg : s.imageOf p = some img)
    (h : ¬ ((k.toNat = img.lastChunk ∨ k.toNat = img.lastChunk + 1) ∧ 47 * k.toNat < img.bytes.length)) :
    cmdReadNext p [k] s = (s, refuse .badValue) := by
  rw [or_comm] at h
  simp only [cmdReadNext, himg, nat1_single]
  exact if_neg h

end

/-- READ NEXT leaves its port the image it had (R196). -/
theorem beforeTake_readNext_imageOf (p : Port) (s : State) :
    (beforeTake p Command.readNext.byte s).imageOf p = s.imageOf p := by
  rw [beforeTake_imageOf]
  exact if_pos rfl

theorem byte1_toNat (k : Byte) : byte1 k.toNat = [k] := by simp [byte1]

/-- Settles O33: which image each command names, and which chunk READ NEXT may ask for. -/
theorem imagesAndChunks : Obligations.ImagesAndChunks := by
  refine ⟨fun p s hn => ⟨fun sel hi lo => ⟨fun hsel => ?_, fun hsel hnone => ?_, fun b hsel hb => ?_, fun hsel hz => ?_,
    fun z hsel hz hnone => ?_, fun z b hsel hz hb => ?_⟩, fun n => ⟨fun hbad => ?_, fun x hslot hx => ?_⟩,
    fun hempty => ?_, fun r rest hqueue => ?_⟩, fun p k s hn => ⟨fun hnone => ?_, fun img himg => ⟨fun hbad => ?_,
    fun hnext hk => ?_⟩⟩⟩
  · exact refused_of (c := .readBale) rfl hn (by cases p <;> rfl) rfl (cmdReadBale_badSelector hsel)
  · refine refused_of (c := .readBale) rfl hn (by cases p <;> rfl) rfl ((cmdReadBale_seq hsel).trans ?_)
    rw [beforeTake_recordOf, hnone, readBaleImage]
  · refine runs_of_image (c := .readBale) rfl hn (by cases p <;> rfl) rfl ((cmdReadBale_seq hsel).trans ?_)
    rw [beforeTake_recordOf, hb, readBaleImage]
  · exact refused_of (c := .readBale) rfl hn (by cases p <;> rfl) rfl (cmdReadBale_badZone hsel hz)
  · refine refused_of (c := .readBale) rfl hn (by cases p <;> rfl) rfl ((cmdReadBale_zone hsel hz).trans ?_)
    rw [beforeTake_recordIn, hnone, readBaleImage]
  · refine runs_of_image (c := .readBale) rfl hn (by cases p <;> rfl) rfl ((cmdReadBale_zone hsel hz).trans ?_)
    rw [beforeTake_recordIn, hb, readBaleImage]
  · exact refused_of (c := .readRecipe) rfl hn (by cases p <;> rfl) rfl (if_pos hbad)
  · exact runs_of_image (c := .readRecipe) rfl hn (by cases p <;> rfl) rfl
      (cmdReadRecipe_sends hslot (by rwa [beforeTake_rs]))
  · refine refused_of (c := .fetchReport) rfl hn (by cases p <;> rfl) rfl ?_
    simp [ownBlock, cmdFetchReport, hempty]
  · refine runs_of_image (c := .fetchReport) rfl hn (by cases p <;> rfl) rfl ?_
    simp [ownBlock, cmdFetchReport, hqueue]
  · refine refused_of (c := .readNext) rfl hn (by cases p <;> rfl) rfl ?_
    simp [ownBlock, cmdReadNext, beforeTake_readNext_imageOf, hnone]
  · have himage := (beforeTake_readNext_imageOf p s).trans himg
    exact runs_of (c := .readNext) rfl hn (by cases p <;> rfl) rfl (cmdReadNext_badValue himage hbad)
      ⟨⟨by simp [Answered, refuse, Command.byte], by simpa using request_frame (changed := []) (.refl _ _)⟩,
        (after_imageOf _ _).trans himage⟩
  · have himage := (beforeTake_readNext_imageOf p s).trans himg
    exact runs_of (c := .readNext) rfl hn (by cases p <;> rfl) rfl (cmdReadNext_chunk himage hnext hk)
      ⟨by simp, by simp [Answered, Command.byte, chunkReply, byte1_toNat],
        (request_frame (State.setImage_link _ p _)).mono (by simp [link_mem_takeBlocks])⟩

/-! ### READ LINK STATS (R198) -/

section

variable (l : LinePort) (r : Response) (v : State)

@[simp] theorem deliver_line : (deliver (linePort l) r v).line l = { v.line l with tx := some r } := by cases l <;> rfl

theorem deliver_target : (deliver .c r v).lc = { v.lc with buffer := some r, readPos := 0 } := rfl

theorem statsOf_line : v.statsOf (linePort l) = (v.line l).stats := by cases l <;> rfl

theorem statsOf_target : v.statsOf .c = v.lc.stats := rfl

theorem imageOf_line : v.imageOf (linePort l) = (v.line l).image := by cases l <;> rfl

end

/-- The link unit as the taking of any command but READ NEXT leaves it (R192, R196). -/
theorem beforeTake_line {code : Byte} (hcode : code ≠ 0x03) (l : LinePort) (s : State) :
    (beforeTake (linePort l) code s).line l =
      { s.line l with frames := stepSaturating (s.line l).frames 255, image := none } := by
  have himage : ((beforeTake (linePort l) code s).line l).image = none := by
    rw [← imageOf_line, beforeTake_imageOf, if_neg hcode]
  rw [(beforeTake_link (linePort l) code s).1 l rfl, himage]

theorem beforeTake_target {code : Byte} (hcode : code ≠ 0x03) (s : State) :
    (beforeTake .c code s).lc = { s.lc with
      buffer := none, readPos := (beforeTake .c code s).lc.readPos
      frames := stepSaturating s.lc.frames 255, image := none
      responseLost := if s.lc.buffer.isSome then stepSaturating s.lc.responseLost 255 else s.lc.responseLost
      errorLatch := s.lc.errorLatch || s.lc.buffer.isSome } := by
  have himage : (beforeTake .c code s).lc.image = none :=
    (beforeTake_imageOf .c code s).trans (if_neg hcode)
  rw [(beforeTake_link .c code s).2 rfl, himage]

/-- The error latch cleared where the flag is 1 (R198). -/
def clearByFlag (flag : Byte) (p : Port) (s : State) : State := if flag.toNat = 1 then clearErrorLatch p s else s

section

variable {flag : Byte} (h : flag.toNat ≤ 1) (s : State)
include h

theorem cmdReadLinkStats_answers (p : Port) :
    cmdReadLinkStats p [flag] s = (clearByFlag flag p s, answer (s.statsOf p)) := if_neg (Nat.not_lt.mpr h)

theorem clearByFlag_line (l : LinePort) : (clearByFlag flag (linePort l) s).line l =
    { s.line l with errorLatch := (s.line l).errorLatch && decide (flag.toNat = 0) } := by
  unfold clearByFlag
  split
  next hone => cases l <;> simp [clearErrorLatch, State.line, linePort, hone]
  next hne =>
    have hzero : flag.toNat = 0 := by omega
    simp [hzero]

theorem clearByFlag_target : (clearByFlag flag .c s).lc =
    { s.lc with errorLatch := s.lc.errorLatch && decide (flag.toNat = 0) } := by
  unfold clearByFlag
  split
  next hone => simp [clearErrorLatch, hone]
  next hne =>
    have hzero : flag.toNat = 0 := by omega
    simp [hzero]

end

theorem clearByFlag_link (flag : Byte) (p : Port) (s : State) : OnlyChanges [.link p] s (clearByFlag flag p s) := by
  unfold clearByFlag
  split
  · exact clearErrorLatch_link p s
  · exact .refl _ s

/-- Settles O39: the figures as the taking left them, then the error latch by the flag. -/
theorem readLinkStats : Obligations.ReadLinkStats := by
  refine fun p flag s hn => ⟨fun hbad => refused_of (c := .readLinkStats) rfl hn (by cases p <;> rfl) rfl (if_pos hbad),
    fun hflag => runs_of (c := .readLinkStats) rfl hn (by cases p <;> rfl) rfl (cmdReadLinkStats_answers hflag _ p)
      ⟨?_, ?_, (request_frame (clearByFlag_link flag p _)).mono (by simp [link_mem_takeBlocks])⟩⟩
  · rintro l rfl
    have hline := beforeTake_line (code := Command.readLinkStats.byte) (by decide) l s
    rw [refreshAttention_line, deliver_line, clearByFlag_line hflag, statsOf_line, hline]
    exact ⟨answered_deliver _ _ .readLinkStats _, rfl⟩
  · rintro rfl
    have htarget := beforeTake_target (code := Command.readLinkStats.byte) (by decide) s
    rw [refreshAttention_lc, deliver_target, clearByFlag_target hflag, statsOf_target, htarget]
    exact ⟨answered_deliver _ _ .readLinkStats _, rfl⟩

end Sys2Proof.Machine
end

section
/-! Proofs. The layout of a bale image (R193, R194, Table 10-4): its lengths, and the offset of every field. The parts of
an image are fields one behind the other, so each stands where the lengths before it add up to. -/

namespace Sys2Proof.Machine

/-! ### Fields one behind the other -/

/-- Fields stand in an image one behind the other, the first at the offset given. -/
def StandFrom (image : List Byte) : Nat → List (List Byte) → Prop
  | _, [] => True
  | offset, field :: fields => CarriesAt image offset field ∧ StandFrom image (offset + field.length) fields

theorem standFrom_flatten (front : List Byte) (fields : List (List Byte)) (back : List Byte) :
    StandFrom (front ++ (fields.flatten ++ back)) front.length fields := by
  induction fields generalizing front with
  | nil => trivial
  | cons field fields ih =>
    have hrest := ih (front ++ field)
    rw [List.length_append, List.append_assoc] at hrest
    rw [List.flatten_cons, List.append_assoc]
    refine ⟨?_, hrest⟩
    rw [CarriesAt, List.drop_left, List.take_left]

/-! ### The fields of the parts -/

/-- The recipe block's fields, in the order of Table 3-1. -/
def Recipe.fields (r : Recipe) : List (List Byte) :=
  [byte2 r.targetDiameter, byte2 r.dc, byte2 r.pc, byte2 r.ps, byte2 r.r, byte1 r.nt, byte2 r.tail, byte2 r.m1,
    byte2 r.m2, byte1 r.l1, byte1 r.l2, byte1 r.l3, byte2 r.neck, byte1 r.s, byte1 r.maxRevs]

/-- The base part's fields before the recipe block, in the order of Table 10-4. -/
def Bale.fields (b : Bale) : List (List Byte) :=
  [byte2 b.seq, byte1 b.recipeIndex, byte1 b.stage.code, byte1 (closeReasonCode b.closeReason), byte2 b.presence,
    byte2 b.flags.marks, byte4 b.opened, byte4 (orZero b.formed), byte4 (orZero b.netStarted), byte4 (orZero b.netted),
    byte4 (orZero b.ejected), byte4 (orZero b.arrived), byte4 (orZero b.wrapped), byte4 (orZero b.closed),
    byte4 b.moistureSum, byte2 b.moistureCount, byte2 (orZero b.moistureMean), byte2 b.peakPressure,
    byte1 b.netAttempts, byte2 b.netOrZero.diameter, byte2 b.netOrZero.circ, byte4 b.netOrZero.target,
    byte4 b.netOrZero.metered, byte1 (orZero b.netTurns), byte1 b.ejectRequested.toNat]

/-- The wrap part's fields, the counts last. -/
def WrapSection.fields (w : WrapSection) : List (List Byte) :=
  [byte1 w.layerTarget, byte2 w.circ, byte2 w.surfacePos, byte1 w.revolutions, byte2 w.lays1, byte2 w.lays2,
    byte4 w.film1, byte4 w.film2, byte1 w.breakCount, byte1 w.breaks.length, w.layers.map (fun n => BitVec.ofNat 8 n)]

theorem recipeBlock_eq_flatten (r : Recipe) : recipeBlock r = r.fields.flatten := by
  simp only [recipeBlock, Recipe.fields, List.flatten_cons, List.flatten_nil, List.append_assoc, List.append_nil]

theorem basePart_eq_flatten (b : Bale) : basePart b = (b.fields ++ b.recipe.fields).flatten := by
  unfold basePart
  rw [recipeBlock_eq_flatten, List.flatten_append]
  simp only [Bale.fields, flag1, List.flatten_cons, List.flatten_nil, List.append_assoc, List.append_nil]

theorem wrapPart_eq_flatten (w : WrapSection) : wrapPart w = w.fields.flatten := by
  simp only [wrapPart, WrapSection.fields, List.flatten_cons, List.flatten_nil, List.append_assoc, List.append_nil]

/-- The fields of the base part stand from the image's start. -/
theorem standFrom_base (b : Bale) : StandFrom (baleImage b) 0 (b.fields ++ b.recipe.fields) := by
  obtain ⟨back, hback⟩ : ∃ back, baleImage b = basePart b ++ back := ⟨_, rfl⟩
  rw [hback, basePart_eq_flatten]
  exact standFrom_flatten [] (b.fields ++ b.recipe.fields) back

section

variable {b : Bale} {w : WrapSection} (hw : b.wrap = some w)
include hw

theorem baleImage_wrapped : baleImage b = basePart b ++ (wrapPart w ++ w.breaks.flatMap breakPart) := by
  rw [baleImage, hw]

/-- The fields of the wrap part stand behind the 90 bytes of the base part. -/
theorem standFrom_wrap : StandFrom (baleImage b) 90 w.fields := by
  rw [baleImage_wrapped hw, wrapPart_eq_flatten, ← length_basePart b]
  exact standFrom_flatten _ _ _

/-- Break entry `k` stands behind 64 counts and the entries before it. -/
theorem carriesAt_break (hlayers : w.layers.length = 64) {k : Nat} {e : BreakEntry} (he : w.breaks[k]? = some e) :
    CarriesAt (baleImage b) (174 + 8 * k) (breakPart e) := by
  have hfront : (basePart b ++ wrapPart w).length = 174 := by simp [hlayers]
  rw [baleImage_wrapped hw, ← List.append_assoc, ← hfront]
  exact (carriesAt_breaks he).behind

theorem length_baleImage_wrapped (hlayers : w.layers.length = 64) :
    (baleImage b).length = 174 + 8 * w.breaks.length := by
  rw [baleImage_wrapped hw, List.length_append, List.length_append, length_basePart, length_wrapPart,
    length_breakParts, hlayers]
  omega

end

theorem length_baleImage_bare {b : Bale} (hw : b.wrap = none) : (baleImage b).length = 90 := by
  simp [baleImage, hw]

/-! ### Marks and absent fields in the statement's terms -/

theorem Bale.presence_eq (b : Bale) : b.presence =
    b.formed.isSome.toNat + 2 * b.netStarted.isSome.toNat + 4 * b.netted.isSome.toNat +
      8 * b.ejected.isSome.toNat + 16 * b.arrived.isSome.toNat + 32 * b.wrapped.isSome.toNat +
      64 * b.closed.isSome.toNat + 128 * b.moistureMean.isSome.toNat + 256 * b.net.isSome.toNat +
      512 * b.netTurns.isSome.toNat + 1024 * b.wrap.isSome.toNat := by
  simp only [Bale.presence, marks]
  omega

theorem RecordFlags.marks_eq (f : RecordFlags) : f.marks =
    f.underwrapped.toNat + 2 * f.forcedTip.toNat + 4 * f.uncommandedTip.toNat + 8 * f.transferFault.toNat +
      16 * f.stopSeen.toNat + 32 * f.staleSensor.toNat + 64 * f.overpressureSeen.toNat +
      128 * f.moistureUnknown.toNat + 256 * f.filmShort.toNat := by
  simp only [RecordFlags.marks, Machine.marks]
  omega

/-- Absent net fields are carried as 0 (R193). -/
theorem Bale.netOrZero_eq (b : Bale) : b.netOrZero =
    ⟨(b.net.map NetFields.diameter).getD 0, (b.net.map NetFields.circ).getD 0, (b.net.map NetFields.target).getD 0,
      (b.net.map NetFields.metered).getD 0⟩ := by
  rw [Bale.netOrZero]
  cases b.net <;> rfl

/-- Settles O34: the fields stand one behind the other, and Table 10-4's offsets are the sums of their lengths. -/
theorem baleImageLayout : Obligations.BaleImageLayout := by
  refine ⟨fun n => ⟨rfl, rfl⟩, rfl, rfl, fun b => ⟨length_baleImage_bare, fun w => length_baleImage_wrapped, ?_⟩⟩
  have hbase := standFrom_base b
  simp only [Bale.fields, Recipe.fields, List.cons_append, List.nil_append, StandFrom, length_byte1, length_byte2,
    length_byte4, Nat.reduceAdd, and_true, Bale.presence_eq, RecordFlags.marks_eq, orZero, Bale.netOrZero_eq] at hbase
  simp only [hbase, true_and]
  intro w hw
  have hwrap := standFrom_wrap hw
  simp only [WrapSection.fields, StandFrom, length_byte1, length_byte2, length_byte4, Nat.reduceAdd, and_true] at hwrap
  refine ⟨hwrap, fun k e hlayers he => ?_⟩
  rcases e with ⟨_ | _, revolutions, surfacePos, time⟩ <;> exact carriesAt_break hw hlayers he

end Sys2Proof.Machine
end

section
/-! Proofs. The step by the form of the queue (95_what_each_step_holds.md, log entry 1). -/

namespace Sys2Proof.Machine

/-- On an empty queue the block idles. -/
theorem step_of_pending_nil {s : State} (h : s.pending = []) : step s = .next s := by
  rw [step, h]

/-- The front command runs, and what it finds in the queue is the rest. -/
theorem step_of_pending_cons {s : State} {c : Instr} {rest : List Instr} (h : s.pending = c :: rest) :
    step s = exec c { s with pending := rest } := by
  rw [step, h]

/-- Settles O1, by the two forms of the queue. -/
theorem stepRunsTheFrontCommand : Obligations.StepRunsTheFrontCommand :=
  ⟨fun _ _ _ => step_of_pending_cons rfl, fun _ => step_of_pending_nil⟩

end Sys2Proof.Machine
end
